-- ==== Sys2Proof/Word.lean ====
section
/-! DEFINITION. The widths of SL-FCC16 (00_scope.md R8) as bit-vector types. -/

namespace Sys2Proof

/-- A datapath byte, a command byte, an operand `imm8`, a mask: 8 bits (R8). -/
abbrev Byte := BitVec 8

/-- A CRC register, a length, a count, a counter, read data: 16 bits (R8). -/
abbrev Half := BitVec 16

/-- An operation word on the command port: 16 bits (R8, R70). -/
abbrev OpWord := BitVec 16

/-- A register-read address: 5 bits (R8, R41). -/
abbrev ReadAddr := BitVec 5

end Sys2Proof
end

