-- ==== Sys2Proof/Syntax.lean ====
section
/-! DEFINITION. The operations of SL-FCC16 (30_encoding.md R73), the outcome of decoding a word (R75),
and the assembler's pseudo-operations (R80). -/

namespace Sys2Proof

/-- The 16 operations of the opcode table (R73), with the operand names of R72. An operation whose
operand is ignored (R76) carries none, as in the decode function of R75. -/
inductive Instr where
  /-- `NOP`, R160. -/
  | nop
  /-- `CRC.INIT`, R102. -/
  | crcInit
  /-- `CRC.FEED b`, R103. -/
  | crcFeed (b : Byte)
  /-- `ENC.BEGIN c`, R111. -/
  | encBegin (c : Byte)
  /-- `ENC.LENHI h`, R112. -/
  | encLenHi (h : Byte)
  /-- `ENC.LENLO l`, R113. -/
  | encLenLo (l : Byte)
  /-- `ENC.DATA b`, R114. -/
  | encData (b : Byte)
  /-- `ENC.ABORT`, R115. -/
  | encAbort
  /-- `ENC.REPLY r`, R116. -/
  | encReply (r : Byte)
  /-- `DEC.RX b`, R130. -/
  | decRx (b : Byte)
  /-- `DEC.ABORT`, R141. -/
  | decAbort
  /-- `RPL.RX b`, R150. -/
  | rplRx (b : Byte)
  /-- `EVT.ACK m`, R162. -/
  | evtAck (m : Byte)
  /-- `IRQ.SET m`, R161. -/
  | irqSet (m : Byte)
  /-- `CNT.CLEAR`, R163. -/
  | cntClear
  /-- `SOFT.RESET`, R164. -/
  | softReset
  deriving DecidableEq, Repr

/-- What decoding a word gives (R75). `ILLEGAL(op)` is a decoded outcome with its own meaning (R166),
not a refusal of the model, and not a row of the opcode table. -/
inductive Decoded where
  /-- A word of the opcode table. -/
  | op (i : Instr)
  /-- A word whose opcode byte is none of R73's. -/
  | illegal (opcode : Byte)
  deriving DecidableEq, Repr

/-- The pseudo-operations of the assembler (R80). The numbers are the source text's, so a length is a
`Nat` until it is checked (`Pseudo.wellFormed`). -/
inductive Pseudo where
  /-- `ENC.LEN n`. -/
  | encLen (n : Nat)
  /-- `ENC.FRAME c, [b0, ..., b(n-1)]`. -/
  | encFrame (c : Byte) (payload : List Byte)
  /-- `ENC.ACK`. -/
  | encAck
  /-- `ENC.NAK`. -/
  | encNak
  /-- `CRC.BLOCK [b0, ..., b(n-1)]`. -/
  | crcBlock (data : List Byte)
  /-- `DEC.STREAM [b0, ..., b(n-1)]`. -/
  | decStream (data : List Byte)
  /-- `EVT.ACKALL`. -/
  | evtAckAll
  /-- `IRQ.OFF`. -/
  | irqOff
  deriving DecidableEq, Repr

/-- One line of an assembler program (R79): an operation of the table or a pseudo-operation. -/
inductive AsmOp where
  | core (i : Instr)
  | pseudo (p : Pseudo)
  deriving DecidableEq, Repr

end Sys2Proof
end

