-- ==== Sys2Proof/Decode.lean ====
section
/-! DEFINITION. Decoding and encoding of operation words (30_encoding.md R70, R73, R75). -/

namespace Sys2Proof

/-- The opcode field `op = w[15:8]` (R70). -/
def opField (w : OpWord) : Byte := w.extractLsb' 8 8

/-- The operand field `imm8 = w[7:0]` (R70). -/
def immField (w : OpWord) : Byte := w.extractLsb' 0 8

/-- The decode function, total on all 65536 words and matching all 8 bits of `op` (R73, R75, R77). -/
def decode (w : OpWord) : Decoded :=
  match (opField w).toNat with
  | 0x00 => .op .nop
  | 0x01 => .op .crcInit
  | 0x02 => .op (.crcFeed (immField w))
  | 0x10 => .op (.encBegin (immField w))
  | 0x11 => .op (.encLenHi (immField w))
  | 0x12 => .op (.encLenLo (immField w))
  | 0x13 => .op (.encData (immField w))
  | 0x14 => .op .encAbort
  | 0x15 => .op (.encReply (immField w))
  | 0x20 => .op (.decRx (immField w))
  | 0x21 => .op .decAbort
  | 0x22 => .op (.rplRx (immField w))
  | 0x30 => .op (.evtAck (immField w))
  | 0x31 => .op (.irqSet (immField w))
  | 0x32 => .op .cntClear
  | 0x3F => .op .softReset
  | _ => .illegal (opField w)

/-- The first `nbits` bits of the number `w` as the one 16-bit word of an operation (R70, R71): the bits
above `nbits` are zero. -/
def tableWord (nbits w : Nat) : OpWord := BitVec.ofNat 16 (w % 2 ^ nbits)

/-- The instruction the decoder reads from an opcode-table word; none where the opcode is illegal. -/
def decodeTableWord (nbits w : Nat) : Option Instr :=
  match decode (tableWord nbits w) with
  | .op i => some i
  | .illegal _ => none

/-- The opcode byte of an operation (R73). -/
def Instr.opcode (i : Instr) : Byte :=
  match i with
  | .nop => 0x00#8
  | .crcInit => 0x01#8
  | .crcFeed _ => 0x02#8
  | .encBegin _ => 0x10#8
  | .encLenHi _ => 0x11#8
  | .encLenLo _ => 0x12#8
  | .encData _ => 0x13#8
  | .encAbort => 0x14#8
  | .encReply _ => 0x15#8
  | .decRx _ => 0x20#8
  | .decAbort => 0x21#8
  | .rplRx _ => 0x22#8
  | .evtAck _ => 0x30#8
  | .irqSet _ => 0x31#8
  | .cntClear => 0x32#8
  | .softReset => 0x3F#8

/-- The operand an operation uses; none where `imm8` is ignored (R72, R76). -/
def Instr.operand (i : Instr) : Option Byte :=
  match i with
  | .nop => none
  | .crcInit => none
  | .crcFeed b => some b
  | .encBegin c => some c
  | .encLenHi h => some h
  | .encLenLo l => some l
  | .encData b => some b
  | .encAbort => none
  | .encReply r => some r
  | .decRx b => some b
  | .decAbort => none
  | .rplRx b => some b
  | .evtAck m => some m
  | .irqSet m => some m
  | .cntClear => none
  | .softReset => none

/-- The assembled word `{op, imm8}`, with `imm8 = 0x00` where the operand is ignored (R76, R79). -/
def encode (i : Instr) : OpWord := i.opcode ++ i.operand.getD 0x00#8

end Sys2Proof
end

