-- ==== Sys2Proof/Machine/Constants.lean ====
section
/-! DEFINITION. The normative constants of 00_scope.md R6, each stated once. -/

namespace Sys2Proof.Machine

/-- `CRC_POLY`: x^16 + x^12 + x^5 + 1, top bit implicit. -/
def crcPoly : Half := 0x1021#16
/-- `CRC_INIT`: initial CRC register value. -/
def crcInitValue : Half := 0xFFFF#16
/-- `CRC_XOROUT`: the final XOR, which DOC says is absent. -/
def crcXorOut : Half := 0x0000#16
/-- `PRE0`: first preamble byte. -/
def pre0 : Byte := 0x55#8
/-- `PRE1`: second preamble byte. -/
def pre1 : Byte := 0xAA#8
/-- `CMD_START`. -/
def cmdStart : Byte := 0x01#8
/-- `CMD_DATA`. -/
def cmdData : Byte := 0x02#8
/-- `CMD_END`. -/
def cmdEnd : Byte := 0x03#8
/-- `CMD_ABORT`. -/
def cmdAbort : Byte := 0x04#8
/-- `ACK`: acknowledge reply byte. -/
def ackByte : Byte := 0x06#8
/-- `NAK`: negative-acknowledge reply byte. -/
def nakByte : Byte := 0x15#8
/-- `HDR_LEN`: header bytes before the payload. -/
def hdrLen : Nat := 5
/-- `TRL_LEN`: trailer bytes after the payload. -/
def trlLen : Nat := 2
/-- `LEN_MAX`: largest value of the 16-bit length field. -/
def lenMax : Nat := 65535

end Sys2Proof.Machine
end

