-- ==== Sys2Proof/Machine/Operands.lean ====
section
/-! DEFINITION. Slicing and assembly of 16-bit values (00_scope.md R9, 20_memory.md R53) and the roles of
operand bytes (30_encoding.md R72, R78). -/

namespace Sys2Proof.Machine

/-- `v[15:8]`, the byte the wire carries first (R53). -/
def hiByte (v : Half) : Byte := v.extractLsb' 8 8

/-- `v[7:0]`, the byte the wire carries second (R53). -/
def loByte (v : Half) : Byte := v.extractLsb' 0 8

/-- `{hi, lo}` (R9). -/
def joinBytes (hi lo : Byte) : Half := hi ++ lo

/-- `{hi, 0x00}`: a 16-bit field after its first byte (R28, R112, R134, R138). -/
def withHigh (hi : Byte) : Half := joinBytes hi 0x00#8

/-- `{v[15:8], lo}`: a 16-bit field after its second byte (R113, R135, R139). -/
def setLow (v : Half) (lo : Byte) : Half := joinBytes (hiByte v) lo

/-- `c in {0x01, 0x02, 0x03, 0x04}`: the legal command bytes (R111, R140). -/
def isCommand (c : Byte) : Bool :=
  c == cmdStart || c == cmdData || c == cmdEnd || c == cmdAbort

/-- The byte a reply select chooses: 0x00 ACK, 0x01 NAK, others none (R72, R116). -/
def replyByte (r : Byte) : Option Byte :=
  if r = 0x00#8 then some ackByte
  else if r = 0x01#8 then some nakByte
  else none

end Sys2Proof.Machine
end

