-- ==== Sys2Proof/Machine/Crc.lean ====
section
/-! DEFINITION. The CRC-16 function (40_crc.md R100, R101, R107) and DOC's frame, the byte list that the
encoder produces and the decoder takes apart (41_encoder.md R117, 20_memory.md R53). -/

namespace Sys2Proof.Machine

/-- One iteration of R100: shift left, and XOR the polynomial in when the top bit was 1. -/
def crcShift (c : Half) : Half :=
  if c.getLsbD 15 then (c <<< 1) ^^^ crcPoly else c <<< 1

/-- `crc16_step` (R100): the byte enters at bits 15:8, then eight shifts. -/
def crc16Step (c : Half) (b : Byte) : Half :=
  crcShift^[8] (c ^^^ withHigh b)

/-- `crc16` (R101): the step folded over the bytes from `CRC_INIT`, then the final XOR with `CRC_XOROUT`,
which is 0x0000. -/
def crc16 (data : List Byte) : Half :=
  data.foldl crc16Step crcInitValue ^^^ crcXorOut

/-- The table `T` of R107. -/
def crcTable (i : Byte) : Half := crc16Step 0x0000#16 i

/-- The byte-table form of the step (R107). -/
def crc16StepByTable (c : Half) (b : Byte) : Half :=
  (c <<< 8) ^^^ crcTable (hiByte c ^^^ b)

/-- The five header bytes `PRE0 PRE1 CMD LEN_HI LEN_LO` (R113). -/
def frameHeader (cmd : Byte) (len : Half) : List Byte :=
  [pre0, pre1, cmd, hiByte len, loByte len]

/-- The two trailer bytes, the checksum with its high byte first (R53, R114). -/
def frameTrailer (crc : Half) : List Byte := [hiByte crc, loByte crc]

/-- DOC's `encode(command, payload)` (R117): header, payload, checksum of the payload. -/
def frameBytes (cmd : Byte) (payload : List Byte) : List Byte :=
  frameHeader cmd (BitVec.ofNat 16 payload.length) ++ payload ++ frameTrailer (crc16 payload)

end Sys2Proof.Machine
end

