-- ==== Sys2Proof/Config.lean ====
section
/-! DEFINITION. What a build of SL-FCC16 fixes: its one parameter (00_scope.md R7). -/

namespace Sys2Proof

/-- The build parameters (R7). The block has exactly one. -/
structure Params where
  /-- `P.RX_MAX_LEN`: the largest payload length the decoder accepts, 0 to 65535. -/
  rxMaxLen : Half
  deriving DecidableEq, Repr

/-- The default build: `RX_MAX_LEN = 65535`, with which no length is rejected (R7). -/
def Params.default : Params := { rxMaxLen := 0xFFFF#16 }

end Sys2Proof
end

