-- ==== Sys2Proof/Machine/State.lean ====
section
/-! DEFINITION. The state of SL-FCC16 (10_state.md R20), its reset value (R40, R201), and the reasons a
step can stop. -/

namespace Sys2Proof.Machine

/-- `enc_state` (R26): which operation the encoder accepts next. -/
inductive EncState where
  | idle
  | lenHi
  | lenLo
  | payload
  deriving DecidableEq, Repr

/-- `dec_state` (R29): the byte the decoder expects next. -/
inductive DecState where
  | hunt0
  | hunt1
  | cmd
  | lenHi
  | lenLo
  | payload
  | crcHi
  | crcLo
  deriving DecidableEq, Repr

/-- `dec_verdict` (R31). Codes 6 and 7 are never produced, so the field is a 6-value type
(93_implementation_defined.md U3). DESIGN CHOICE, safe (notes/assumptions 6). -/
inductive Verdict where
  | none
  | ok
  | crcErr
  | cmdErr
  | lenErr
  | aborted
  deriving DecidableEq, Repr

/-- `rpl_class` (R33). -/
inductive RplClass where
  | none
  | ackR
  | nakR
  | garbage
  deriving DecidableEq, Repr

/-- An element of the RXO stream (R44). -/
inductive RxEvent where
  /-- `Payload(b)`: the next payload byte of the frame in progress. -/
  | payload (b : Byte)
  /-- `End(verdict, cmd, len)`: the frame in progress finished or was abandoned. -/
  | frameEnd (verdict : Verdict) (cmd : Byte) (len : Half)
  deriving DecidableEq, Repr

/-- What the environment can put to the block: an operation word on the command port (R70), or the
hardware reset input, one atomic step (R200). -/
inductive PortInput where
  | word (w : OpWord)
  | hwReset
  deriving DecidableEq, Repr

/-- The state record of R20, with two fields of the model's own: `params`, the build parameter, which no
step writes (R7, R20), and `port`, the environment's inputs that the block has not taken yet. -/
@[ext]
structure State where
  /-- `crc_val`, R24. -/
  crcVal : Half
  /-- `enc_state`, R26. -/
  encState : EncState
  /-- `enc_cmd`, R25. -/
  encCmd : Byte
  /-- `enc_len`, R25. -/
  encLen : Half
  /-- `enc_remain`, R25. -/
  encRemain : Half
  /-- `enc_crc`, R25. -/
  encCrc : Half
  /-- `dec_state`, R29. -/
  decState : DecState
  /-- `dec_cmd`, R28. -/
  decCmd : Byte
  /-- `dec_len`, R28. -/
  decLen : Half
  /-- `dec_count`, R28. -/
  decCount : Half
  /-- `dec_crc`, R28. -/
  decCrc : Half
  /-- `dec_crc_rx`, R28. -/
  decCrcRx : Half
  /-- `dec_verdict`, R31. -/
  decVerdict : Verdict
  /-- `rpl_class`, R33. -/
  rplClass : RplClass
  /-- `rpl_byte`, R32. -/
  rplByte : Byte
  /-- `evt`, R34, R180. -/
  evt : Byte
  /-- `irq_en`, R34. -/
  irqEn : Byte
  /-- `cnt_tx`, R35. -/
  cntTx : Half
  /-- `cnt_rx_ok`, R35. -/
  cntRxOk : Half
  /-- `cnt_rx_bad`, R35. -/
  cntRxBad : Half
  /-- `cnt_discard`, R35. -/
  cntDiscard : Half
  /-- `tx`, the bytes put on the link, oldest first, R39. -/
  tx : List Byte
  /-- `rxo`, the decoder's events, oldest first, R39. -/
  rxo : List RxEvent
  /-- The build parameter `P`, R7. The model's own field: configuration, not the spec's state.
  DESIGN CHOICE, safe (notes/assumptions 1). -/
  params : Params
  /-- The inputs not yet taken, in the order the command port accepts them (R62, R63). The model's own
  field: the environment's, not the block's. DESIGN CHOICE, safe (notes/assumptions 2, 3, 4). -/
  port : List PortInput
  deriving DecidableEq, Repr

/-- The faults of the machine: none. "No operation faults, halts or sticks the block" (R182), so the type
is empty and a fault cannot be written down. DEDUCED, safe: nothing is left out (notes/assumptions 7). -/
inductive Fault : Type where
  deriving DecidableEq, Repr

/-- The refusals of the machine. -/
inductive Refusal where
  /-- Raised by an arm of `exec` whose instruction has no meaning yet; no arm is such an arm. Safe: the
  model would stop where the hardware goes on. -/
  | notModelled (mnemonic : String)
  deriving DecidableEq, Repr

/-- The machine right after reset (R40, R200), as a model starts: `tx = []`, `rxo = []` (R201), the default
build parameter (R7), and nothing on the command port. -/
def State.reset : State where
  crcVal := crcInitValue
  encState := .idle
  encCmd := 0x00#8
  encLen := 0x0000#16
  encRemain := 0x0000#16
  encCrc := crcInitValue
  decState := .hunt0
  decCmd := 0x00#8
  decLen := 0x0000#16
  decCount := 0x0000#16
  decCrc := crcInitValue
  decCrcRx := 0x0000#16
  decVerdict := .none
  rplClass := .none
  rplByte := 0x00#8
  evt := 0x00#8
  irqEn := 0x00#8
  cntTx := 0x0000#16
  cntRxOk := 0x0000#16
  cntRxBad := 0x0000#16
  cntDiscard := 0x0000#16
  tx := []
  rxo := []
  params := Params.default
  port := []

end Sys2Proof.Machine
end

