-- ==== Sys2Proof/Machine/Flags.lean ====
section
/-! DEFINITION. The event bits and the interrupt level (60_exceptions.md R180 to R183). These are the
block's only flags (10_state.md R36). -/

namespace Sys2Proof.Machine

/-- The eight events of R180. -/
inductive Evt where
  | rxOk
  | rxBad
  | txDone
  | rxDiscard
  | seqErr
  | cmdErr
  | illegalOp
  | rplRx
  deriving DecidableEq, Repr

/-- The bit number of an event in `evt` (R180). -/
def evtBit (e : Evt) : Nat :=
  match e with
  | .rxOk => 0
  | .rxBad => 1
  | .txDone => 2
  | .rxDiscard => 3
  | .seqErr => 4
  | .cmdErr => 5
  | .illegalOp => 6
  | .rplRx => 7

/-- The byte with just that event's bit set. -/
def evtMask (e : Evt) : Byte := 1#8 <<< evtBit e

/-- Setting an event bit; one already 1 stays 1 (R181). -/
def setEvt (evt : Byte) (e : Evt) : Byte := evt ||| evtMask e

/-- Write-one-to-clear: `evt AND (NOT m)` (R162). -/
def ackEvt (evt m : Byte) : Byte := evt &&& ~~~m

/-- The `irq` output, a function of `evt` and `irq_en`, not a field (R45, R183). -/
def irq (s : State) : Bool := (s.evt &&& s.irqEn) != 0x00#8

/-- The event a finished or abandoned frame raises (R130, R180). -/
def verdictEvt (v : Verdict) : Evt := if v = .ok then .rxOk else .rxBad

end Sys2Proof.Machine
end

