-- ==== Sys2Proof/Machine/Ops.lean ====
section
/-! DEFINITION. The operations that the meanings share: the pseudocode primitives of 00_scope.md R11, the
encoder's sequence check (41_encoder.md R110), the decoder's helpers (42_decoder.md R130) and reset
(70_reset_and_hazards.md R200). SL-FCC16 takes no exception (60_exceptions.md R186): its one error mechanism
is `raise`, which sets an event bit and changes nothing else. -/

namespace Sys2Proof.Machine

/-- `EmitTX(b0, b1, ...)`: append to the TX stream, in the order written (R11). -/
def emitTx (bs : List Byte) (s : State) : State := { s with tx := s.tx ++ bs }

/-- `EmitRX(ev)`: append to the RXO stream (R11). -/
def emitRx (e : RxEvent) (s : State) : State := { s with rxo := s.rxo ++ [e] }

/-- `raise EVT.<NAME>` (R11, R181). -/
def raise (e : Evt) (s : State) : State := { s with evt := setEvt s.evt e }

/-- The state check of R110: an encoder operation in a state that does not accept it only raises
`SEQ_ERR`; otherwise it runs. -/
def whenEnc (want : EncState) (body : State → State) (s : State) : State :=
  if s.encState = want then body s else raise .seqErr s

/-- The end of a frame in the encoder (R113, R114): the checksum goes out high byte first, the frame is
counted, `TX_DONE` is raised and the encoder is `IDLE` again. -/
def finishTx (s : State) : State :=
  { s with
    tx := s.tx ++ frameTrailer s.encCrc
    cntTx := s.cntTx + 1
    evt := setEvt s.evt .txDone
    encState := .idle }

/-- The preamble detector discards `n` link bytes (R131). -/
def discardBytes (n : Half) (s : State) : State :=
  { s with
    cntDiscard := s.cntDiscard + n
    evt := setEvt s.evt .rxDiscard }

/-- `preamble_match()` (R130, R132): `dec_verdict` is kept. -/
def preambleMatch (s : State) : State :=
  { s with
    decCmd := 0x00#8
    decLen := 0x0000#16
    decCount := 0x0000#16
    decCrc := crcInitValue
    decCrcRx := 0x0000#16
    decState := .cmd }

/-- `frame_end(v)` (R130, R140): record the verdict, emit `End`, count the frame and raise its event, and
hunt again. -/
def frameEnd (v : Verdict) (s : State) : State :=
  { s with
    decVerdict := v
    rxo := s.rxo ++ [.frameEnd v s.decCmd s.decLen]
    cntRxOk := if v = .ok then s.cntRxOk + 1 else s.cntRxOk
    cntRxBad := if v = .ok then s.cntRxBad else s.cntRxBad + 1
    evt := setEvt s.evt (verdictEvt v)
    decState := .hunt0 }

/-- Reset, the one behaviour of the hardware reset input and SOFT.RESET (R164, R200): every field of R20
but the streams takes its reset value. The streams, the build parameter and the inputs not yet taken are
left as they are. -/
def resetBlock (s : State) : State :=
  { State.reset with tx := s.tx, rxo := s.rxo, params := s.params, port := s.port }

end Sys2Proof.Machine
end

