-- ==== Sys2Proof/Machine/Control.lean ====
section
/-! DEFINITION. The control operations, illegal words and hardware reset (43_control.md,
70_reset_and_hazards.md R200). -/

namespace Sys2Proof.Machine

/-- NOP (R160). -/
def execNop (s : State) : Host.Outcome State Fault Refusal :=
  .next s

/-- EVT.ACK (R162). -/
def execEvtAck (m : Byte) (s : State) : Host.Outcome State Fault Refusal :=
  .next { s with evt := ackEvt s.evt m }

/-- IRQ.SET (R161): all 8 bits are implemented. -/
def execIrqSet (m : Byte) (s : State) : Host.Outcome State Fault Refusal :=
  .next { s with irqEn := m }

/-- CNT.CLEAR (R163). -/
def execCntClear (s : State) : Host.Outcome State Fault Refusal :=
  .next { s with
    cntTx := 0x0000#16
    cntRxOk := 0x0000#16
    cntRxBad := 0x0000#16
    cntDiscard := 0x0000#16 }

/-- SOFT.RESET (R164). -/
def execSoftReset (s : State) : Host.Outcome State Fault Refusal :=
  .next (resetBlock s)

/-- A word with an illegal opcode (R77, R166): it raises `ILLEGAL_OP`, and which opcode came is not
recorded. -/
def execIllegal (_opcode : Byte) (s : State) : Host.Outcome State Fault Refusal :=
  .next (raise .illegalOp s)

/-- The hardware reset input, one atomic step identical to SOFT.RESET (R200). -/
def execHwReset (s : State) : Host.Outcome State Fault Refusal :=
  .next (resetBlock s)

end Sys2Proof.Machine
end

