-- ==== Sys2Proof/Machine/CrcUnit.lean ====
section
/-! DEFINITION. The standalone CRC unit: CRC.INIT and CRC.FEED (40_crc.md section 2). -/

namespace Sys2Proof.Machine

/-- CRC.INIT (R102). -/
def execCrcInit (s : State) : Host.Outcome State Fault Refusal :=
  .next { s with crcVal := crcInitValue }

/-- CRC.FEED (R103). -/
def execCrcFeed (b : Byte) (s : State) : Host.Outcome State Fault Refusal :=
  .next { s with crcVal := crc16Step s.crcVal b }

end Sys2Proof.Machine
end

