-- ==== Sys2Proof/Machine/Decoder.lean ====
section
/-! DEFINITION. The frame decoder: preamble detector, field unpacker and CRC validator
(42_decoder.md section 1). Each decoder state has its own definition. -/

namespace Sys2Proof.Machine

/-- `HUNT0` (R131 (a)). -/
def rxHunt0 (b : Byte) (s : State) : State :=
  if b = pre0 then { s with decState := .hunt1 } else discardBytes 1 s

/-- `HUNT1` (R131 (b) to (d)). -/
def rxHunt1 (b : Byte) (s : State) : State :=
  if b = pre1 then preambleMatch s
  else if b = pre0 then discardBytes 1 s
  else { discardBytes 2 s with decState := .hunt0 }

/-- `CMD` (R133): stored unchecked. -/
def rxCmd (b : Byte) (s : State) : State :=
  { s with decCmd := b, decState := .lenHi }

/-- `LEN_HI` (R134). -/
def rxLenHi (b : Byte) (s : State) : State :=
  { s with decLen := withHigh b, decState := .lenLo }

/-- `LEN_LO` (R135) and the length check (R136). -/
def rxLenLo (b : Byte) (s : State) : State :=
  let len := setLow s.decLen b
  if s.params.rxMaxLen < len then frameEnd .lenErr { s with decLen := len }
  else if len = 0x0000#16 then { s with decLen := len, decState := .crcHi }
  else { s with decLen := len, decState := .payload }

/-- `PAYLOAD` (R137). -/
def rxPayload (b : Byte) (s : State) : State :=
  { s with
    rxo := s.rxo ++ [.payload b]
    decCrc := crc16Step s.decCrc b
    decCount := s.decCount + 1
    decState := if s.decCount + 1 = s.decLen then .crcHi else .payload }

/-- `CRC_HI` (R138). -/
def rxCrcHi (b : Byte) (s : State) : State :=
  { s with decCrcRx := withHigh b, decState := .crcLo }

/-- The verdict on a complete frame (R140): the checksum is checked before the command. -/
def frameVerdict (crcRx crc : Half) (cmd : Byte) : Verdict :=
  if crcRx ≠ crc then .crcErr
  else if isCommand cmd then .ok
  else .cmdErr

/-- `CRC_LO` (R139, R140). -/
def rxCrcLo (b : Byte) (s : State) : State :=
  frameEnd (frameVerdict (setLow s.decCrcRx b) s.decCrc s.decCmd)
    { s with decCrcRx := setLow s.decCrcRx b }

/-- DEC.RX (R130). -/
def execDecRx (b : Byte) (s : State) : Host.Outcome State Fault Refusal :=
  .next <|
    match s.decState with
    | .hunt0 => rxHunt0 b s
    | .hunt1 => rxHunt1 b s
    | .cmd => rxCmd b s
    | .lenHi => rxLenHi b s
    | .lenLo => rxLenLo b s
    | .payload => rxPayload b s
    | .crcHi => rxCrcHi b s
    | .crcLo => rxCrcLo b s

/-- DEC.ABORT (R141). -/
def execDecAbort (s : State) : Host.Outcome State Fault Refusal :=
  .next <|
    match s.decState with
    | .hunt0 => s
    | .hunt1 => { discardBytes 1 s with decState := .hunt0 }
    | .cmd => frameEnd .aborted s
    | .lenHi => frameEnd .aborted s
    | .lenLo => frameEnd .aborted s
    | .payload => frameEnd .aborted s
    | .crcHi => frameEnd .aborted s
    | .crcLo => frameEnd .aborted s

end Sys2Proof.Machine
end

