-- ==== Sys2Proof/Machine/Encoder.lean ====
section
/-! DEFINITION. The frame encoder and the reply emitter (41_encoder.md section 2). -/

namespace Sys2Proof.Machine

/-- ENC.BEGIN (R111): the state check comes first, then the command check. -/
def execEncBegin (c : Byte) (s : State) : Host.Outcome State Fault Refusal :=
  .next <| s |> whenEnc .idle fun s =>
    if isCommand c then
      { s with
        encCmd := c
        encLen := 0x0000#16
        encRemain := 0x0000#16
        encCrc := crcInitValue
        encState := .lenHi }
    else raise .cmdErr s

/-- ENC.LENHI (R112). -/
def execEncLenHi (h : Byte) (s : State) : Host.Outcome State Fault Refusal :=
  .next <| s |> whenEnc .lenHi fun s =>
    { s with encLen := withHigh h, encState := .lenLo }

/-- The length is complete and the header goes out (R113). -/
def emitHeader (l : Byte) (s : State) : State :=
  emitTx (frameHeader s.encCmd (setLow s.encLen l)) { s with encLen := setLow s.encLen l }

/-- ENC.LENLO (R113): with length 0 the frame is finished in the same step. -/
def execEncLenLo (l : Byte) (s : State) : Host.Outcome State Fault Refusal :=
  .next <| s |> whenEnc .lenLo fun s =>
    if setLow s.encLen l = 0x0000#16 then finishTx (emitHeader l s)
    else { emitHeader l s with encRemain := setLow s.encLen l, encState := .payload }

/-- One payload byte goes out and into the running CRC, and one fewer remains (R114). -/
def pushPayload (b : Byte) (s : State) : State :=
  { s with
    tx := s.tx ++ [b]
    encCrc := crc16Step s.encCrc b
    encRemain := s.encRemain - 1 }

/-- ENC.DATA (R114): the last payload byte finishes the frame in the same step. -/
def execEncData (b : Byte) (s : State) : Host.Outcome State Fault Refusal :=
  .next <| s |> whenEnc .payload fun s =>
    if s.encRemain - 1 = 0x0000#16 then finishTx (pushPayload b s) else pushPayload b s

/-- ENC.ABORT (R115): accepted in every state. -/
def execEncAbort (s : State) : Host.Outcome State Fault Refusal :=
  .next <|
    if s.encState = .idle then s
    else { s with encState := .idle, encRemain := 0x0000#16 }

/-- ENC.REPLY (R116). -/
def execEncReply (r : Byte) (s : State) : Host.Outcome State Fault Refusal :=
  .next <| s |> whenEnc .idle fun s =>
    match replyByte r with
    | some b => emitTx [b] s
    | none => raise .cmdErr s

end Sys2Proof.Machine
end

