-- ==== Sys2Proof/Machine/Reply.lean ====
section
/-! DEFINITION. The reply-byte classifier (42_decoder.md section 3). -/

namespace Sys2Proof.Machine

/-- The class of a reply byte (R33, R150). -/
def classifyReply (b : Byte) : RplClass :=
  if b = ackByte then .ackR
  else if b = nakByte then .nakR
  else .garbage

/-- RPL.RX (R150). -/
def execRplRx (b : Byte) (s : State) : Host.Outcome State Fault Refusal :=
  .next <| raise .rplRx { s with rplByte := b, rplClass := classifyReply b }

end Sys2Proof.Machine
end

