-- ==== Sys2Proof/Machine/Dispatch.lean ====
section
/-! DEFINITION. One arm per operation of the opcode table (30_encoding.md R73). -/

namespace Sys2Proof.Machine

def exec (i : Instr) (s : State) : Host.Outcome State Fault Refusal :=
  match i with
  | .nop => Sys2Proof.Machine.execNop s
  | .crcInit => Sys2Proof.Machine.execCrcInit s
  | .crcFeed b => Sys2Proof.Machine.execCrcFeed b s
  | .encBegin c => Sys2Proof.Machine.execEncBegin c s
  | .encLenHi h => Sys2Proof.Machine.execEncLenHi h s
  | .encLenLo l => Sys2Proof.Machine.execEncLenLo l s
  | .encData b => Sys2Proof.Machine.execEncData b s
  | .encAbort => Sys2Proof.Machine.execEncAbort s
  | .encReply r => Sys2Proof.Machine.execEncReply r s
  | .decRx b => Sys2Proof.Machine.execDecRx b s
  | .decAbort => Sys2Proof.Machine.execDecAbort s
  | .rplRx b => Sys2Proof.Machine.execRplRx b s
  | .evtAck m => Sys2Proof.Machine.execEvtAck m s
  | .irqSet m => Sys2Proof.Machine.execIrqSet m s
  | .cntClear => Sys2Proof.Machine.execCntClear s
  | .softReset => Sys2Proof.Machine.execSoftReset s

end Sys2Proof.Machine
end

