-- ==== Sys2Proof/Machine/Port.lean ====
section
/-! DEFINITION. The command port (30_encoding.md R70, 20_memory.md R62, R63) and what the block does with
one input (00_scope.md R12). -/

namespace Sys2Proof.Machine

/-- The oldest input not yet taken, and the state without it. The block takes inputs one at a time, in the
order the port accepts them (R62). -/
def takeInput (s : State) : Option (PortInput × State) :=
  match s.port with
  | [] => none
  | x :: rest => some (x, { s with port := rest })

/-- The client pushes one word, so that it is the next one taken. -/
def offerWord (w : OpWord) (s : State) : State := { s with port := .word w :: s.port }

/-- One decoded word (R75): an operation of the table, or an illegal word with its own effect (R166). -/
def execDecoded (d : Decoded) (s : State) : Host.Outcome State Fault Refusal :=
  match d with
  | .op i => exec i s
  | .illegal op => execIllegal op s

/-- One input (R12, R200). -/
def execInput (x : PortInput) (s : State) : Host.Outcome State Fault Refusal :=
  match x with
  | .word w => execDecoded (decode w) s
  | .hwReset => execHwReset s

/-- One step of the block: it takes one input and carries it out (R12). With none arriving it holds its
state (60_exceptions.md R195). -/
def stepBlock (s : State) : Host.Outcome State Fault Refusal :=
  match takeInput s with
  | none => .next s
  | some (x, s') => execInput x s'

end Sys2Proof.Machine
end

