-- ==== Sys2Proof/Machine/Step.lean ====
section
/-! DEFINITION. The step function, and how the next operation word is placed. -/

namespace Sys2Proof.Machine

/-- One step (00_scope.md R12). -/
def step (s : State) : Host.Outcome State Fault Refusal := stepBlock s

/-- `s` with an operation word placed at the head of the command port, where `step` takes its next input.
This stands for the client's push (30_encoding.md R70); the block itself fetches nothing (10_state.md R23). -/
def State.withFetchWord (s : State) (nbits w : Nat) : State := offerWord (tableWord nbits w) s

end Sys2Proof.Machine
end

