-- ==== Sys2Proof/WellFormed.lean ====
section
/-! DEFINITION. Which terms of the syntax the spec admits. -/

namespace Sys2Proof

/-- Every operand byte of every operation is admitted: no operand value is an encoding error
(30_encoding.md R76, R78; the two operand values with a defined error are rejected by the operation's
own rule at run time). The operand's range 0 to 255 (R79) is its type. -/
def Instr.wellFormed (i : Instr) : Bool :=
  match i with
  | .nop => true
  | .crcInit => true
  | .crcFeed _ => true
  | .encBegin _ => true
  | .encLenHi _ => true
  | .encLenLo _ => true
  | .encData _ => true
  | .encAbort => true
  | .encReply _ => true
  | .decRx _ => true
  | .decAbort => true
  | .rplRx _ => true
  | .evtAck _ => true
  | .irqSet _ => true
  | .cntClear => true
  | .softReset => true

/-- The bounds R80 puts on a pseudo-operation: a length fits the 16-bit length field. -/
def Pseudo.wellFormed (p : Pseudo) : Bool :=
  match p with
  | .encLen n => decide (n ≤ 65535)
  | .encFrame _ payload => decide (payload.length ≤ 65535)
  | .encAck => true
  | .encNak => true
  | .crcBlock _ => true
  | .decStream _ => true
  | .evtAckAll => true
  | .irqOff => true

/-- A line of a program is admitted when its operation is. -/
def AsmOp.wellFormed (a : AsmOp) : Bool :=
  match a with
  | .core i => i.wellFormed
  | .pseudo p => p.wellFormed

end Sys2Proof
end

