-- ==== Sys2Proof/Machine/Assembler.lean ====
section
/-! DEFINITION. The assembler's text form (30_encoding.md R79) and its pseudo-operations (R80). It is
notation for lists of operation words; the block itself never sees it. -/

namespace Sys2Proof.Machine

/-- The expansion of a pseudo-operation (R80). -/
def expandPseudo (p : Pseudo) : List Instr :=
  match p with
  | .encLen n => [.encLenHi (hiByte (BitVec.ofNat 16 n)), .encLenLo (loByte (BitVec.ofNat 16 n))]
  | .encFrame c payload =>
    let n := BitVec.ofNat 16 payload.length
    [.encBegin c, .encLenHi (hiByte n), .encLenLo (loByte n)] ++ payload.map .encData
  | .encAck => [.encReply 0x00#8]
  | .encNak => [.encReply 0x01#8]
  | .crcBlock data => .crcInit :: data.map .crcFeed
  | .decStream data => data.map .decRx
  | .evtAckAll => [.evtAck 0xFF#8]
  | .irqOff => [.irqSet 0x00#8]

/-- The operations one line stands for. -/
def expandAsm (a : AsmOp) : List Instr :=
  match a with
  | .core i => [i]
  | .pseudo p => expandPseudo p

/-- The words one line assembles to; none where R80's bounds fail. -/
def assembleOp (a : AsmOp) : Option (List OpWord) :=
  if a.wellFormed then some ((expandAsm a).map encode) else none

/-- The tokens of a line. -/
inductive Token where
  | ident (name : List Char)
  | num (n : Nat)
  | comma
  | lbracket
  | rbracket
  deriving DecidableEq, Repr

/-- Mnemonics are case-insensitive (R79). -/
def upperChar (c : Char) : Char :=
  if 97 ≤ c.toNat ∧ c.toNat ≤ 122 then Char.ofNat (c.toNat - 32) else c

/-- The value of a digit in base 16. -/
def digitValue (c : Char) : Option Nat :=
  let n := (upperChar c).toNat
  if 48 ≤ n ∧ n ≤ 57 then some (n - 48)
  else if 65 ≤ n ∧ n ≤ 70 then some (n - 55)
  else none

/-- The digits `cs` read in a base, after the value `acc`. -/
def digitsValue (base acc : Nat) (cs : List Char) : Option Nat :=
  match cs with
  | [] => some acc
  | c :: rest =>
    match digitValue c with
    | none => none
    | some d => if d < base then digitsValue base (acc * base + d) rest else none

/-- A word that starts with a digit is a number (`0xHH` or decimal, R79); any other is a name. -/
def wordToken (cs : List Char) : Option Token :=
  match cs with
  | [] => none
  | '0' :: 'x' :: d :: rest => (digitsValue 16 0 (d :: rest)).map .num
  | c :: rest =>
    match digitValue c with
    | some d =>
      if d < 10 then (digitsValue 10 0 (c :: rest)).map .num
      else some (.ident ((c :: rest).map upperChar))
    | none => some (.ident ((c :: rest).map upperChar))

/-- The tokens of the word read so far (kept in reverse), then `rest`. -/
def flushWord (word : List Char) (rest : Option (List Token)) : Option (List Token) :=
  match word, rest with
  | _, none => none
  | [], some ts => some ts
  | c :: cs, some ts => (wordToken (c :: cs).reverse).map fun t => t :: ts

/-- Splits a line into tokens; what R79 leaves open is a DESIGN CHOICE, safe (notes/assumptions 13).
A `;` outside a character literal starts the comment; `'c'` stands for the ASCII code of `c` (R79). -/
def lexLine (word : List Char) (cs : List Char) : Option (List Token) :=
  match cs with
  | [] => flushWord word (some [])
  | '\'' :: c :: '\'' :: rest =>
    if c.toNat < 128 then flushWord word ((lexLine [] rest).map fun ts => .num c.toNat :: ts) else none
  | c :: rest =>
    if c = ';' then flushWord word (some [])
    else if c = ' ' ∨ c = '\t' then flushWord word (lexLine [] rest)
    else if c = ',' then flushWord word ((lexLine [] rest).map fun ts => .comma :: ts)
    else if c = '[' then flushWord word ((lexLine [] rest).map fun ts => .lbracket :: ts)
    else if c = ']' then flushWord word ((lexLine [] rest).map fun ts => .rbracket :: ts)
    else lexLine (c :: word) rest

/-- An operand byte: "an operand above 255 is an assembly error" (R79). -/
def asByte (n : Nat) : Option Byte := if n ≤ 255 then some (BitVec.ofNat 8 n) else none

/-- A list of bytes `[b0, ..., b(n-1)]` (R80), after its opening bracket and at least one element read. -/
def listTail (ts : List Token) : Option (List Byte) :=
  match ts with
  | [.rbracket] => some []
  | .comma :: .num n :: rest =>
    match asByte n, listTail rest with
    | some b, some bs => some (b :: bs)
    | _, _ => none
  | _ => none

/-- A list of bytes `[b0, ..., b(n-1)]`, possibly empty (R80). -/
def byteList (ts : List Token) : Option (List Byte) :=
  match ts with
  | [.lbracket, .rbracket] => some []
  | .lbracket :: .num n :: rest =>
    match asByte n, listTail rest with
    | some b, some bs => some (b :: bs)
    | _, _ => none
  | _ => none

/-- The operations whose operand is ignored: written without one (R76, R79). -/
def bareMnemonics : List (List Char × AsmOp) :=
  [ (['N','O','P'], .core .nop),
    (['C','R','C','.','I','N','I','T'], .core .crcInit),
    (['E','N','C','.','A','B','O','R','T'], .core .encAbort),
    (['D','E','C','.','A','B','O','R','T'], .core .decAbort),
    (['C','N','T','.','C','L','E','A','R'], .core .cntClear),
    (['S','O','F','T','.','R','E','S','E','T'], .core .softReset),
    (['E','N','C','.','A','C','K'], .pseudo .encAck),
    (['E','N','C','.','N','A','K'], .pseudo .encNak),
    (['E','V','T','.','A','C','K','A','L','L'], .pseudo .evtAckAll),
    (['I','R','Q','.','O','F','F'], .pseudo .irqOff) ]

/-- The operations that use an operand byte: each must have one (R79). -/
def byteMnemonics : List (List Char × (Byte → Instr)) :=
  [ (['C','R','C','.','F','E','E','D'], .crcFeed),
    (['E','N','C','.','B','E','G','I','N'], .encBegin),
    (['E','N','C','.','L','E','N','H','I'], .encLenHi),
    (['E','N','C','.','L','E','N','L','O'], .encLenLo),
    (['E','N','C','.','D','A','T','A'], .encData),
    (['E','N','C','.','R','E','P','L','Y'], .encReply),
    (['D','E','C','.','R','X'], .decRx),
    (['R','P','L','.','R','X'], .rplRx),
    (['E','V','T','.','A','C','K'], .evtAck),
    (['I','R','Q','.','S','E','T'], .irqSet) ]

/-- The pseudo-operations that take a list of bytes (R80). -/
def listMnemonics : List (List Char × (List Byte → Pseudo)) :=
  [ (['C','R','C','.','B','L','O','C','K'], .crcBlock),
    (['D','E','C','.','S','T','R','E','A','M'], .decStream) ]

/-- The operation a line's tokens write: none for an assembly error, and the inner none for a line with no
operation. -/
def parseTokens (ts : List Token) : Option (Option AsmOp) :=
  match ts with
  | [] => some none
  | [.ident m] => (bareMnemonics.lookup m).map some
  | [.ident m, .num n] =>
    if m = ['E','N','C','.','L','E','N'] then some (some (.pseudo (.encLen n)))
    else
      match byteMnemonics.lookup m, asByte n with
      | some f, some b => some (some (.core (f b)))
      | _, _ => none
  | .ident m :: .num c :: .comma :: rest =>
    match asByte c, byteList rest with
    | some c, some bs =>
      if m = ['E','N','C','.','F','R','A','M','E'] then some (some (.pseudo (.encFrame c bs))) else none
    | _, _ => none
  | .ident m :: rest =>
    match listMnemonics.lookup m, byteList rest with
    | some f, some bs => some (some (.pseudo (f bs)))
    | _, _ => none
  | _ => none

/-- One line of source text, `MNEMONIC [operand] [; comment]` (R79): the words it assembles to, or none for
an assembly error. -/
def assembleLine (line : List Char) : Option (List OpWord) :=
  match lexLine [] line with
  | none => none
  | some ts =>
    match parseTokens ts with
    | none => none
    | some none => some []
    | some (some a) => assembleOp a

/-- A program, one operation per line (R79). -/
def assembleProgram (lines : List (List Char)) : Option (List OpWord) :=
  match lines with
  | [] => some []
  | l :: rest =>
    match assembleLine l, assembleProgram rest with
    | some ws, some more => some (ws ++ more)
    | _, _ => none

end Sys2Proof.Machine
end

