-- ==== Sys2Proof/Machine/ReadPort.lean ====
section
/-! DEFINITION. The register read port and what a client can observe (10_state.md R41, R46, R47,
00_scope.md R13). A read is a pure function of the state (20_memory.md R52). -/

namespace Sys2Proof.Machine

/-- The 2-bit code of `enc_state` (R26). -/
def encStateCode (e : EncState) : BitVec 2 :=
  match e with
  | .idle => 0#2
  | .lenHi => 1#2
  | .lenLo => 2#2
  | .payload => 3#2

/-- The 3-bit code of `dec_state` (R29). -/
def decStateCode (d : DecState) : BitVec 3 :=
  match d with
  | .hunt0 => 0#3
  | .hunt1 => 1#3
  | .cmd => 2#3
  | .lenHi => 3#3
  | .lenLo => 4#3
  | .payload => 5#3
  | .crcHi => 6#3
  | .crcLo => 7#3

/-- The 3-bit code of `dec_verdict` (R31). -/
def verdictCode (v : Verdict) : BitVec 3 :=
  match v with
  | .none => 0#3
  | .ok => 1#3
  | .crcErr => 2#3
  | .cmdErr => 3#3
  | .lenErr => 4#3
  | .aborted => 5#3

/-- The 2-bit code of `rpl_class` (R33). -/
def rplClassCode (r : RplClass) : BitVec 2 :=
  match r with
  | .none => 0#2
  | .ackR => 1#2
  | .nakR => 2#2
  | .garbage => 3#2

/-- `Read(addr)` (R41). A bit marked "read 0" is 0 in every state (R46), and so is a reserved address,
0x13 to 0x1F (R47). -/
def readReg (a : ReadAddr) (s : State) : Half :=
  match a.toNat with
  | 0x00 => s.crcVal
  | 0x01 => s.encCmd ++ 0#6 ++ encStateCode s.encState
  | 0x02 => s.encLen
  | 0x03 => s.encRemain
  | 0x04 => s.encCrc
  | 0x05 => s.decCmd ++ 0#1 ++ verdictCode s.decVerdict ++ 0#1 ++ decStateCode s.decState
  | 0x06 => s.decLen
  | 0x07 => s.decCount
  | 0x08 => s.decCrc
  | 0x09 => s.decCrcRx
  | 0x0A => s.rplByte ++ 0#6 ++ rplClassCode s.rplClass
  | 0x0B => 0#8 ++ s.evt
  | 0x0C => 0#8 ++ s.irqEn
  | 0x0D => 0#15 ++ BitVec.ofBool (irq s)
  | 0x0E => s.cntTx
  | 0x0F => s.cntRxOk
  | 0x10 => s.cntRxBad
  | 0x11 => s.cntDiscard
  | 0x12 => s.params.rxMaxLen
  | _ => 0x0000#16

/-- All a client can observe of a state (R13). -/
structure Observation where
  /-- (a) the TX stream. -/
  tx : List Byte
  /-- (b) the RXO stream. -/
  rxo : List RxEvent
  /-- (c) the `irq` level. -/
  irq : Bool
  /-- (d) the 32 read-port registers, by address. -/
  regs : Vector Half 32
  deriving DecidableEq, Repr

/-- What a client observes (R13). -/
def observe (s : State) : Observation where
  tx := s.tx
  rxo := s.rxo
  irq := irq s
  regs := Vector.ofFn fun a : Fin 32 => readReg (BitVec.ofFin a) s

end Sys2Proof.Machine
end

