-- ==== Sys2Proof/Machine/Units.lean ====
section
/-! DEFINITION. Which unit an operation belongs to (30_encoding.md R73, 10_state.md R21), and which inputs
belong to the datapath units whose operations commute (20_memory.md R63). -/

namespace Sys2Proof.Machine

/-- The five units of R1. -/
inductive BlockUnit where
  | crc
  | enc
  | dec
  | rpl
  | ctl
  deriving DecidableEq, Repr

/-- The unit column of R73. -/
def unitOf (i : Instr) : BlockUnit :=
  match i with
  | .nop => .ctl
  | .crcInit => .crc
  | .crcFeed _ => .crc
  | .encBegin _ => .enc
  | .encLenHi _ => .enc
  | .encLenLo _ => .enc
  | .encData _ => .enc
  | .encAbort => .enc
  | .encReply _ => .enc
  | .decRx _ => .dec
  | .decAbort => .dec
  | .rplRx _ => .rpl
  | .evtAck _ => .ctl
  | .irqSet _ => .ctl
  | .cntClear => .ctl
  | .softReset => .ctl

/-- `s` with the datapath fields and the stream of one unit taken from `r` (the rows of R20 marked with
that unit; TX is the encoder's stream and RXO the decoder's). CTL has no datapath fields. -/
def copyUnit (u : BlockUnit) (r s : State) : State :=
  match u with
  | .crc => { s with crcVal := r.crcVal }
  | .enc => { s with
      encState := r.encState, encCmd := r.encCmd, encLen := r.encLen, encRemain := r.encRemain
      encCrc := r.encCrc, tx := r.tx }
  | .dec => { s with
      decState := r.decState, decCmd := r.decCmd, decLen := r.decLen, decCount := r.decCount
      decCrc := r.decCrc, decCrcRx := r.decCrcRx, decVerdict := r.decVerdict, rxo := r.rxo }
  | .rpl => { s with rplClass := r.rplClass, rplByte := r.rplByte }
  | .ctl => s

end Sys2Proof.Machine
end

