-- ==== Sys2Proof/Safety.lean ====
section
/-! DEFINITION. What the claims speak about: sequences of inputs, the operations of one unit within them,
the invariants of 10_state.md R27 and R30, and the states a run can reach. -/

namespace Sys2Proof.Machine

/-- What the block does with a sequence of inputs put ahead of whatever else waits on the port: one step of
the host's machine for each (00_scope.md R12, 20_memory.md R62). -/
def feed (xs : List PortInput) (s : State) : Host.Outcome State Fault Refusal :=
  Sys2Proof.core.run xs.length { s with port := xs ++ s.port }

/-- The operation an input carries; none for an illegal word and for hardware reset. -/
def inputOp (x : PortInput) : Option Instr :=
  match x with
  | .word w =>
    match decode w with
    | .op i => some i
    | .illegal _ => none
  | .hwReset => none

/-- The operations of one unit in a sequence of inputs, in order. -/
def opsOf (u : BlockUnit) (xs : List PortInput) : List Instr :=
  (xs.filterMap inputOp).filter fun i => decide (unitOf i = u)

/-- No input of the sequence resets the block. -/
abbrev noReset (xs : List PortInput) : Prop :=
  ∀ x ∈ xs, x ≠ .hwReset ∧ inputOp x ≠ some .softReset

/-- No input of the sequence is CNT.CLEAR. -/
abbrev noCntClear (xs : List PortInput) : Prop := ∀ x ∈ xs, inputOp x ≠ some .cntClear

/-- Whether an operation is EVT.ACK. -/
def isEvtAck (i : Instr) : Bool := i.opcode = 0x30#8

/-- No input of the sequence is EVT.ACK. -/
abbrev noEvtAck (xs : List PortInput) : Prop := ∀ x ∈ xs, (inputOp x).all (fun i => !isEvtAck i) = true

/-- The inputs that push an operation each, as the assembler writes them. -/
def asInputs (is : List Instr) : List PortInput := is.map fun i => .word (encode i)

/-- The payload bytes of an RXO stream, in order (R44). -/
def rxoPayloads (es : List RxEvent) : List Byte :=
  es.filterMap fun e =>
    match e with
    | .payload b => some b
    | .frameEnd _ _ _ => none

/-- The last `n` elements of a list. -/
def lastN {α : Type} (n : Nat) (l : List α) : List α := l.drop (l.length - n)

/-- The encoder's invariants (R27), with what TX holds of the frame in progress (R25: `enc_crc` is the CRC
of the payload bytes pushed so far, and `enc_len - enc_remain` of them are emitted). -/
structure EncInv (s : State) : Prop where
  /-- `PAYLOAD` implies `1 <= enc_remain <= enc_len`. -/
  remain_in_payload : s.encState = .payload → 0x0001#16 ≤ s.encRemain ∧ s.encRemain ≤ s.encLen
  /-- Outside `PAYLOAD`, `enc_remain == 0`. -/
  remain_elsewhere : s.encState ≠ .payload → s.encRemain = 0x0000#16
  /-- Outside `IDLE`, `enc_cmd` is a command. -/
  command : s.encState ≠ .idle → s.encCmd ∈ [0x01#8, 0x02#8, 0x03#8, 0x04#8]
  /-- Before the payload the running CRC is that of no bytes. -/
  crc_before_payload : s.encState = .lenHi ∨ s.encState = .lenLo → s.encCrc = crc16 []
  /-- In `PAYLOAD`, TX ends with the frame's header and the payload bytes emitted so far. -/
  stream : s.encState = .payload → ∃ before p,
    s.tx = before ++ frameHeader s.encCmd s.encLen ++ p ∧
    p.length = (s.encLen - s.encRemain).toNat ∧ s.encCrc = crc16 p

/-- The decoder's invariants (R30). The payload bytes received since the last preamble match are the last
`dec_count` payload bytes on RXO: DEDUCED, safe (notes/assumptions 12). -/
structure DecInv (s : State) : Prop where
  /-- In the header no payload byte has been received. -/
  count_in_header : s.decState = .cmd ∨ s.decState = .lenHi ∨ s.decState = .lenLo → s.decCount = 0x0000#16
  /-- `PAYLOAD` implies `dec_count < dec_len` and `1 <= dec_len <= P.RX_MAX_LEN`. -/
  count_in_payload : s.decState = .payload →
    s.decCount < s.decLen ∧ 0x0001#16 ≤ s.decLen ∧ s.decLen ≤ s.params.rxMaxLen
  /-- `CRC_HI` and `CRC_LO` imply `dec_count == dec_len`. -/
  count_in_trailer : s.decState = .crcHi ∨ s.decState = .crcLo → s.decCount = s.decLen
  /-- RXO holds the payload bytes counted. -/
  count_on_rxo : s.decCount.toNat ≤ (rxoPayloads s.rxo).length
  /-- `dec_crc == crc16` of those bytes. -/
  running_crc : s.decCrc = crc16 (lastN s.decCount.toNat (rxoPayloads s.rxo))

/-- No `End` event carries the verdict `NONE` (R31, R44). -/
def EndsHaveVerdict (s : State) : Prop :=
  ∀ v cmd len, RxEvent.frameEnd v cmd len ∈ s.rxo → v ≠ .none

/-- The states a block can be in: a block of any build starts in the reset state, inputs arrive in any
order and at any time (20_memory.md R63), and the block steps. -/
inductive Reachable : State → Prop where
  | start (p : Params) : Reachable { State.reset with params := p }
  | arrive (s : State) (xs : List PortInput) : Reachable s → Reachable { s with port := s.port ++ xs }
  | step (s t : State) : Reachable s → Sys2Proof.Machine.step s = .next t → Reachable t

end Sys2Proof.Machine
end

