-- ==== Sys2Proof/Certificates/Slice0/Obligations.lean ====
section
/-! DEFINITION. The statements for the provers, each formalising rules of the spec. -/

open Sys2Proof Sys2Proof.Machine

/-- For every opcode byte and operand byte, the word {op, imm8} decodes as R75's table says: the 16 opcodes
give their operation, with the operand byte where the operation uses it and with any operand byte where
it is ignored; every other opcode byte gives ILLEGAL(op). Every word is such a pair, so decoding is
total. The assembler writes 0x00 as an ignored operand. (R75, R76) -/
def Obligations.DecodeFollowsOpcodeTable : Prop :=
  (∀ b : Byte,
    decode (0x00#8 ++ b) = .op .nop ∧
    decode (0x01#8 ++ b) = .op .crcInit ∧
    decode (0x02#8 ++ b) = .op (.crcFeed b) ∧
    decode (0x10#8 ++ b) = .op (.encBegin b) ∧
    decode (0x11#8 ++ b) = .op (.encLenHi b) ∧
    decode (0x12#8 ++ b) = .op (.encLenLo b) ∧
    decode (0x13#8 ++ b) = .op (.encData b) ∧
    decode (0x14#8 ++ b) = .op .encAbort ∧
    decode (0x15#8 ++ b) = .op (.encReply b) ∧
    decode (0x20#8 ++ b) = .op (.decRx b) ∧
    decode (0x21#8 ++ b) = .op .decAbort ∧
    decode (0x22#8 ++ b) = .op (.rplRx b) ∧
    decode (0x30#8 ++ b) = .op (.evtAck b) ∧
    decode (0x31#8 ++ b) = .op (.irqSet b) ∧
    decode (0x32#8 ++ b) = .op .cntClear ∧
    decode (0x3F#8 ++ b) = .op .softReset) ∧
  (∀ op b : Byte, op ∉ [0x00#8, 0x01#8, 0x02#8, 0x10#8, 0x11#8, 0x12#8, 0x13#8, 0x14#8, 0x15#8, 0x20#8,
      0x21#8, 0x22#8, 0x30#8, 0x31#8, 0x32#8, 0x3F#8] → decode (op ++ b) = .illegal op) ∧
  (∀ w : OpWord, ∃ op b : Byte, w = op ++ b) ∧
  (∀ i ∈ [Instr.nop, .crcInit, .encAbort, .decAbort, .cntClear, .softReset], immField (encode i) = 0x00#8)

/-- The illegal opcode bytes are exactly 0x03-0x0F, 0x16-0x1F, 0x23-0x2F, 0x33-0x3E and 0x40-0xFF, 240 of
them. Carrying out a word with such an opcode, whatever its operand and in every state, gives a next
state in which evt bit 6 is set and nothing else has changed. (R77, R166) -/
def Obligations.IllegalWordsOnlyRaiseIllegalOp : Prop :=
  (∀ op b : Byte, decode (op ++ b) = .illegal op ↔
    (0x03#8 ≤ op ∧ op ≤ 0x0F#8) ∨ (0x16#8 ≤ op ∧ op ≤ 0x1F#8) ∨ (0x23#8 ≤ op ∧ op ≤ 0x2F#8) ∨
    (0x33#8 ≤ op ∧ op ≤ 0x3E#8) ∨ 0x40#8 ≤ op) ∧
  (List.range 256).countP (fun n =>
    decide (decode (BitVec.ofNat 8 n ++ 0x00#8) = .illegal (BitVec.ofNat 8 n))) = 240 ∧
  (∀ (op b : Byte) (s : State), decode (op ++ b) = .illegal op →
    execInput (.word (op ++ b)) s = .next { s with evt := s.evt ||| 0x40#8 })

/-- For every well-formed operation, with every operand: decoding its encoding gives it back; and every word
that decodes to it has its opcode byte and, when the operation uses its operand, is exactly its
encoding. (30_encoding.md section 2, 30_encoding.md section 4) -/
def Obligations.DecodeEncodeRoundTrip : Prop :=
  ∀ i : Instr, i.wellFormed = true →
    decode (encode i) = .op i ∧
    ∀ w : OpWord, decode w = .op i →
      opField w = opField (encode i) ∧ (i.operand ≠ none → w = encode i)

/-- One word of each family written in the spec decodes as it says: 0x0231 is CRC.FEED 0x31, 0x1003
ENC.BEGIN 0x03, 0x1204 ENC.LENLO 0x04, 0x20AA DEC.RX 0xAA, 0x2241 RPL.RX 0x41, 0x3104 IRQ.SET 0x04,
0x3FAB SOFT.RESET, 0x00FF NOP; 0x4000 is illegal. (30_encoding.md section 2, 95_test_vectors.md section
2) -/
def Obligations.SampleWordsDecode : Prop :=
  decode 0x0231#16 = .op (.crcFeed 0x31#8) ∧ decode 0x1003#16 = .op (.encBegin 0x03#8) ∧
  decode 0x1204#16 = .op (.encLenLo 0x04#8) ∧ decode 0x20AA#16 = .op (.decRx 0xAA#8) ∧
  decode 0x2241#16 = .op (.rplRx 0x41#8) ∧ decode 0x3104#16 = .op (.irqSet 0x04#8) ∧
  decode 0x3FAB#16 = .op .softReset ∧ decode 0x00FF#16 = .op .nop ∧
  decode 0x4000#16 = .illegal 0x40#8

/-- ENC.LEN n and ENC.FRAME c, payload assemble, for lengths up to 65535, to the words R80 lists, with the
length's high byte first; the other pseudo-operations assemble to their listed words. That a longer
length or payload is an assembly error is the model's choice (notes/assumptions 13): R80 gives the
bounds and does not say what happens beyond them. (30_encoding.md section 4) -/
def Obligations.PseudoOperationsExpand : Prop :=
  (∀ n : Nat, n ≤ 65535 → assembleOp (.pseudo (.encLen n)) =
    some [0x11#8 ++ BitVec.ofNat 8 (n / 256), 0x12#8 ++ BitVec.ofNat 8 (n % 256)]) ∧
  (∀ (c : Byte) (p : List Byte), p.length ≤ 65535 → assembleOp (.pseudo (.encFrame c p)) =
    some ([0x10#8 ++ c, 0x11#8 ++ BitVec.ofNat 8 (p.length / 256),
      0x12#8 ++ BitVec.ofNat 8 (p.length % 256)] ++ p.map (fun b => 0x13#8 ++ b))) ∧
  (∀ n : Nat, 65535 < n → assembleOp (.pseudo (.encLen n)) = none) ∧
  (∀ (c : Byte) (p : List Byte), 65535 < p.length → assembleOp (.pseudo (.encFrame c p)) = none) ∧
  assembleOp (.pseudo .encAck) = some [0x1500#16] ∧
  assembleOp (.pseudo .encNak) = some [0x1501#16] ∧
  (∀ d : List Byte, assembleOp (.pseudo (.crcBlock d)) =
    some (0x0100#16 :: d.map (fun b => 0x02#8 ++ b))) ∧
  (∀ d : List Byte, assembleOp (.pseudo (.decStream d)) = some (d.map (fun b => 0x20#8 ++ b))) ∧
  assembleOp (.pseudo .evtAckAll) = some [0x30FF#16] ∧
  assembleOp (.pseudo .irqOff) = some [0x3100#16]

/-- When the next input on the command port is a word that decodes to a well-formed operation, one step is
exactly that operation's meaning, on the state with that word taken from the port. When it is a word
that decodes to ILLEGAL(op), or the hardware reset input, one step is exactly carrying that out, on the
state with the input taken. That the port is a list in State, and that hardware reset is one of its
inputs, is the model's choice (notes/assumptions 2, 4 and 5). (00_scope.md section 4, 30_encoding.md
section 1) -/
def Obligations.StepRunsDecodedOperation : Prop :=
  (∀ (s : State) (w : OpWord) (rest : List PortInput) (i : Instr),
    s.port = .word w :: rest → decode w = .op i → i.wellFormed = true →
    step s = exec i { s with port := rest }) ∧
  (∀ (s : State) (w : OpWord) (rest : List PortInput) (op : Byte),
    s.port = .word w :: rest → decode w = .illegal op →
    step s = execIllegal op { s with port := rest }) ∧
  (∀ (s : State) (rest : List PortInput), s.port = .hwReset :: rest →
    step s = execHwReset { s with port := rest })

/-- When no input waits on the port, one step leaves the state as it is. That a step exists then, and that
waiting inputs are a list in State, is the model's choice (notes/assumptions 2). (60_exceptions.md
section 4) -/
def Obligations.StepHoldsWithoutInput : Prop :=
  ∀ s : State, s.port = [] → step s = .next s

/-- In every state, reachable or not, and for whatever input comes next, one step answers a next state; so
does every operation of the table. (00_scope.md section 4, 60_exceptions.md section 1) -/
def Obligations.StepAlwaysAnswersNext : Prop :=
  (∀ s : State, ∃ t, step s = .next t) ∧ (∀ (i : Instr) (s : State), ∃ t, exec i s = .next t)

/-- Feeding one sequence of inputs and then another from the state the first leaves is the same as feeding
both in one sequence: each operation sees every effect of those before it and of no other. (20_memory.md
section 5) -/
def Obligations.InputsAreTakenInOrder : Prop :=
  ∀ (xs ys : List PortInput) (s t : State),
    feed xs s = .next t → feed (xs ++ ys) s = feed ys t

/-- Every field of the state record has R40's reset value in the state after reset; tx and rxo are empty
when the model is built and unchanged by a reset of any state. (R40) -/
def Obligations.ResetStateValues : Prop :=
  State.reset.crcVal = 0xFFFF#16 ∧ State.reset.encState = .idle ∧ State.reset.encCmd = 0x00#8 ∧
  State.reset.encLen = 0x0000#16 ∧ State.reset.encRemain = 0x0000#16 ∧ State.reset.encCrc = 0xFFFF#16 ∧
  State.reset.decState = .hunt0 ∧ State.reset.decCmd = 0x00#8 ∧ State.reset.decLen = 0x0000#16 ∧
  State.reset.decCount = 0x0000#16 ∧ State.reset.decCrc = 0xFFFF#16 ∧ State.reset.decCrcRx = 0x0000#16 ∧
  State.reset.decVerdict = .none ∧ State.reset.rplClass = .none ∧ State.reset.rplByte = 0x00#8 ∧
  State.reset.evt = 0x00#8 ∧ State.reset.irqEn = 0x00#8 ∧ State.reset.cntTx = 0x0000#16 ∧
  State.reset.cntRxOk = 0x0000#16 ∧ State.reset.cntRxBad = 0x0000#16 ∧
  State.reset.cntDiscard = 0x0000#16 ∧ State.reset.tx = [] ∧ State.reset.rxo = [] ∧
  (∀ s t : State, exec .softReset s = .next t ∨ execInput .hwReset s = .next t →
    { t with tx := [], rxo := [], params := State.reset.params, port := [] } = State.reset ∧
    t.tx = s.tx ∧ t.rxo = s.rxo)

/-- Every word 0x3Fxx decodes to SOFT.RESET. In every state it answers the next state whose fields all hold
their reset values, with tx and rxo (and the build parameter and the inputs not yet taken, which are not
fields of R20) unchanged; evt is 0x00 and the interrupt level is low. Carrying out the hardware reset
input answers the same. (R164) -/
def Obligations.SoftResetResult : Prop :=
  (∀ b : Byte, decode (0x3F#8 ++ b) = .op .softReset) ∧
  (∀ s : State, exec .softReset s = .next
    { crcVal := 0xFFFF#16, encState := .idle, encCmd := 0x00#8, encLen := 0x0000#16
      encRemain := 0x0000#16, encCrc := 0xFFFF#16, decState := .hunt0, decCmd := 0x00#8
      decLen := 0x0000#16, decCount := 0x0000#16, decCrc := 0xFFFF#16, decCrcRx := 0x0000#16
      decVerdict := .none, rplClass := .none, rplByte := 0x00#8, evt := 0x00#8, irqEn := 0x00#8
      cntTx := 0x0000#16, cntRxOk := 0x0000#16, cntRxBad := 0x0000#16, cntDiscard := 0x0000#16
      tx := s.tx, rxo := s.rxo, params := s.params, port := s.port }) ∧
  (∀ s t : State, exec .softReset s = .next t → irq t = false) ∧
  (∀ s : State, execInput .hwReset s = exec .softReset s)

/-- For every register value and byte, the step XORs the byte into bits 15:8 and then eight times shifts
left by one, XORing 0x1021 in exactly when the bit shifted out was 1. (R100) -/
def Obligations.CrcStepShiftsAndXors : Prop :=
  ∀ (c : Half) (b : Byte), crc16Step c b =
    (fun v : Half => if v.getLsbD 15 = true then (v <<< 1) ^^^ 0x1021#16 else v <<< 1)^[8]
      (c ^^^ (b ++ 0x00#8))

/-- Every word 0x01xx decodes to CRC.INIT. In every state it answers the next state with crc_val = 0xFFFF
and every other field, both streams included, unchanged; a second one changes nothing. (R102) -/
def Obligations.CrcInitResult : Prop :=
  (∀ b : Byte, decode (0x01#8 ++ b) = .op .crcInit) ∧
  (∀ s : State, exec .crcInit s = .next { s with crcVal := 0xFFFF#16 }) ∧
  (∀ s t : State, exec .crcInit s = .next t → exec .crcInit t = .next t)

/-- Every word 0x02bb decodes to CRC.FEED bb. In every state it answers the next state with crc_val =
crc16_step(crc_val, b) and every other field, both streams included, unchanged. From 0x0000 the byte
0x00 leaves 0x0000; from 0xFFFF the byte 0x31 gives 0xC782. (40_crc.md section 2, 95_test_vectors.md
section 2.1) -/
def Obligations.CrcFeedResult : Prop :=
  (∀ b : Byte, decode (0x02#8 ++ b) = .op (.crcFeed b)) ∧
  (∀ (b : Byte) (s : State), exec (.crcFeed b) s = .next { s with crcVal := crc16Step s.crcVal b }) ∧
  crc16Step 0x0000#16 0x00#8 = 0x0000#16 ∧ crc16Step 0xFFFF#16 0x31#8 = 0xC782#16

/-- If the CRC operations among a sequence of inputs are CRC.INIT and then CRC.FEED of the bytes of d, and
nothing in it resets the block, then from any state the sequence runs and leaves crc_val = crc16(d),
whatever other operations and illegal words come between (notes/assumptions 15); crc16(d) is the fold of
crc16_step over d from 0xFFFF. (40_crc.md section 1, 40_crc.md section 2) -/
def Obligations.CrcBlockComputesCrc16 : Prop :=
  (∀ d : List Byte, crc16 d = d.foldl crc16Step 0xFFFF#16) ∧
  (∀ (d : List Byte) (xs : List PortInput) (s : State),
    opsOf .crc xs = .crcInit :: d.map .crcFeed → noReset xs →
    ∃ t, feed xs s = .next t ∧ t.crcVal = crc16 d)

/-- crc16 of the nine ASCII bytes 0x31 to 0x39 is 0x29B1; the vectors K1 to K6, K13, K15 and K17 have the
values the spec lists. (R106) -/
def Obligations.CrcReferenceVectors : Prop :=
  crc16 [0x31#8, 0x32#8, 0x33#8, 0x34#8, 0x35#8, 0x36#8, 0x37#8, 0x38#8, 0x39#8] = 0x29B1#16 ∧
  crc16 [] = 0xFFFF#16 ∧ crc16 [0x00#8] = 0xE1F0#16 ∧ crc16 [0xFF#8] = 0xFF00#16 ∧
  crc16 [0x01#8] = 0xF1D1#16 ∧ crc16 [0x80#8] = 0x7078#16 ∧ crc16 [0x55#8] = 0xEBA0#16 ∧
  crc16 [0x14#8, 0x05#8, 0x00#8, 0x00#8] = 0xBE66#16 ∧ crc16 [0xFF#8, 0xFF#8] = 0x0000#16 ∧
  crc16 [0xDE#8, 0xAD#8, 0xBE#8, 0xEF#8] = 0x4097#16

/-- For every byte list d, crc16 of d followed by its own checksum, high byte first, is 0x0000; and for any
two bytes after d the CRC is 0x0000 only if they are that checksum. (R105) -/
def Obligations.CrcResidueIsZeroExactlyWhenRight : Prop :=
  (∀ d : List Byte, crc16 (d ++ [hiByte (crc16 d), loByte (crc16 d)]) = 0x0000#16) ∧
  (∀ (d : List Byte) (h l : Byte), crc16 (d ++ [h, l]) = 0x0000#16 ↔ joinBytes h l = crc16 d)

/-- For every register value and byte, (c << 8) XOR T[c[15:8] XOR b] is crc16_step(c, b), where T[i] =
crc16_step(0, i); the spec's four table entries are as listed. (R107) -/
def Obligations.CrcTableFormEqualsStep : Prop :=
  (∀ (c : Half) (b : Byte), crc16Step c b = (c <<< 8) ^^^ crcTable (hiByte c ^^^ b)) ∧
  (∀ (c : Half) (b : Byte), crc16StepByTable c b = crc16Step c b) ∧
  (∀ i : Byte, crcTable i = crc16Step 0x0000#16 i) ∧
  crcTable 0x00#8 = 0x0000#16 ∧ crcTable 0x01#8 = 0x1021#16 ∧
  crcTable 0x80#8 = 0x9188#16 ∧ crcTable 0xFF#8 = 0x1EF0#16

/-- crc16 of FF FF followed by any number of 00 bytes is 0x0000; two frames with the same payload carry the
same checksum whatever their command bytes. (40_crc.md section 3) -/
def Obligations.CrcBlindSpots : Prop :=
  (∀ n : Nat, crc16 ([0xFF#8, 0xFF#8] ++ List.replicate n 0x00#8) = 0x0000#16) ∧
  (∀ (c c' : Byte) (p : List Byte),
    (frameBytes c p).drop (p.length + 5) = [hiByte (crc16 p), loByte (crc16 p)] ∧
    (frameBytes c' p).drop (p.length + 5) = (frameBytes c p).drop (p.length + 5))

/-- For every byte list, every position and every bit of the byte there, flipping that bit changes crc16 of
the list. (42_decoder.md section 1, 93_implementation_defined.md part 2) -/
def Obligations.CrcDetectsSingleBitFlip : Prop :=
  ∀ (before after : List Byte) (b : Byte) (k : Nat), k < 8 →
    crc16 (before ++ (b ^^^ (1#8 <<< k)) :: after) ≠ crc16 (before ++ b :: after)

/-- Whatever input the block carries out, an illegal word and hardware reset included, crc_val afterwards is
what it was, or 0xFFFF, or crc16_step of what it was with the operand of the CRC.FEED word carried out:
no operation loads a seed or uses another polynomial. (R104) -/
def Obligations.CrcValIsNeverLoaded : Prop :=
  ∀ (x : PortInput) (s t : State), execInput x s = .next t →
    t.crcVal = s.crcVal ∨ t.crcVal = 0xFFFF#16 ∨
    ∃ b : Byte, x = .word (0x02#8 ++ b) ∧ t.crcVal = crc16Step s.crcVal b

/-- Every word 0x10cc decodes to ENC.BEGIN cc. In IDLE with a command 0x01 to 0x04 it answers the next state
with enc_cmd = c, enc_len = 0, enc_remain = 0, enc_crc = 0xFFFF and enc_state = LEN_HI; in IDLE with any
other byte only evt bit 5 is set; in any other state only evt bit 4 is set. Everything else, tx
included, is unchanged. (R111) -/
def Obligations.EncBeginResult : Prop :=
  (∀ c : Byte, decode (0x10#8 ++ c) = .op (.encBegin c)) ∧
  (∀ (c : Byte) (s : State), s.encState = .idle →
    (c = 0x01#8 ∨ c = 0x02#8 ∨ c = 0x03#8 ∨ c = 0x04#8) →
    exec (.encBegin c) s = .next { s with
      encCmd := c, encLen := 0x0000#16, encRemain := 0x0000#16, encCrc := 0xFFFF#16, encState := .lenHi }) ∧
  (∀ (c : Byte) (s : State), s.encState = .idle →
    ¬(c = 0x01#8 ∨ c = 0x02#8 ∨ c = 0x03#8 ∨ c = 0x04#8) →
    exec (.encBegin c) s = .next { s with evt := s.evt ||| 0x20#8 }) ∧
  (∀ (c : Byte) (s : State), s.encState ≠ .idle →
    exec (.encBegin c) s = .next { s with evt := s.evt ||| 0x10#8 })

/-- Every word 0x11bb decodes to ENC.LENHI bb. In LEN_HI it answers the next state with enc_len = {h, 0x00}
and enc_state = LEN_LO, for every h; in any other state only evt bit 4 is set. Everything else is
unchanged. (R112) -/
def Obligations.EncLenHiResult : Prop :=
  (∀ h : Byte, decode (0x11#8 ++ h) = .op (.encLenHi h)) ∧
  (∀ (h : Byte) (s : State), s.encState = .lenHi →
    exec (.encLenHi h) s = .next { s with encLen := h ++ 0x00#8, encState := .lenLo }) ∧
  (∀ (h : Byte) (s : State), s.encState ≠ .lenHi →
    exec (.encLenHi h) s = .next { s with evt := s.evt ||| 0x10#8 })

/-- Every word 0x12bb decodes to ENC.LENLO bb. In LEN_LO, with the length n = {enc_len[15:8], l}: if n is
not 0 the next state has 55 AA CMD LEN_HI LEN_LO appended to tx, enc_len = enc_remain = n and enc_state
= PAYLOAD; if n is 0 it has the header and the two bytes of enc_crc, high first, appended, cnt_tx one
more, evt bit 2 set and enc_state = IDLE. In any other state only evt bit 4 is set. Everything else is
unchanged. (R113) -/
def Obligations.EncLenLoResult : Prop :=
  (∀ l : Byte, decode (0x12#8 ++ l) = .op (.encLenLo l)) ∧
  (∀ (l : Byte) (s : State) (n : Half), s.encState = .lenLo → n = hiByte s.encLen ++ l → n ≠ 0x0000#16 →
    exec (.encLenLo l) s = .next { s with
      encLen := n, encRemain := n, encState := .payload
      tx := s.tx ++ [0x55#8, 0xAA#8, s.encCmd, hiByte n, loByte n] }) ∧
  (∀ (l : Byte) (s : State) (n : Half), s.encState = .lenLo → n = hiByte s.encLen ++ l → n = 0x0000#16 →
    exec (.encLenLo l) s = .next { s with
      encLen := 0x0000#16, encState := .idle, cntTx := s.cntTx + 1, evt := s.evt ||| 0x04#8
      tx := s.tx ++ [0x55#8, 0xAA#8, s.encCmd, 0x00#8, 0x00#8, hiByte s.encCrc, loByte s.encCrc] }) ∧
  (∀ (l : Byte) (s : State), s.encState ≠ .lenLo →
    exec (.encLenLo l) s = .next { s with evt := s.evt ||| 0x10#8 })

/-- Every word 0x13bb decodes to ENC.DATA bb. In PAYLOAD, with c' = crc16_step(enc_crc, b): if more than
this byte remains the next state has b appended to tx, enc_crc = c' and enc_remain one less; if this is
the last byte it has b and the two bytes of c', high first, appended, enc_crc = c', enc_remain = 0,
cnt_tx one more, evt bit 2 set and enc_state = IDLE. In any other state only evt bit 4 is set.
Everything else is unchanged. Under the encoder's invariant enc_remain does not wrap. (R114) -/
def Obligations.EncDataResult : Prop :=
  (∀ b : Byte, decode (0x13#8 ++ b) = .op (.encData b)) ∧
  (∀ (b : Byte) (s : State), s.encState = .payload → s.encRemain ≠ 0x0001#16 →
    exec (.encData b) s = .next { s with
      tx := s.tx ++ [b], encCrc := crc16Step s.encCrc b, encRemain := s.encRemain - 1 }) ∧
  (∀ (b : Byte) (s : State), s.encState = .payload → s.encRemain = 0x0001#16 →
    exec (.encData b) s = .next { s with
      tx := s.tx ++ [b, hiByte (crc16Step s.encCrc b), loByte (crc16Step s.encCrc b)]
      encCrc := crc16Step s.encCrc b, encRemain := 0x0000#16
      cntTx := s.cntTx + 1, evt := s.evt ||| 0x04#8, encState := .idle }) ∧
  (∀ (b : Byte) (s : State), s.encState ≠ .payload →
    exec (.encData b) s = .next { s with evt := s.evt ||| 0x10#8 }) ∧
  (∀ s : State, EncInv s → s.encState = .payload → (s.encRemain - 1).toNat + 1 = s.encRemain.toNat)

/-- Every word 0x14xx decodes to ENC.ABORT. In IDLE it answers the same state; in any other state it answers
the next state with enc_state = IDLE and enc_remain = 0 and everything else, the other encoder
registers, events, counters and tx included, unchanged. (R115) -/
def Obligations.EncAbortResult : Prop :=
  (∀ b : Byte, decode (0x14#8 ++ b) = .op .encAbort) ∧
  (∀ s : State, s.encState = .idle → exec .encAbort s = .next s) ∧
  (∀ s : State, s.encState ≠ .idle →
    exec .encAbort s = .next { s with encState := .idle, encRemain := 0x0000#16 })

/-- Every word 0x15rr decodes to ENC.REPLY rr. In IDLE, select 0x00 answers the next state with 0x06
appended to tx, select 0x01 with 0x15 appended, and any other select with only evt bit 5 set; in any
other state only evt bit 4 is set. Everything else, cnt_tx included, is unchanged. (R116) -/
def Obligations.EncReplyResult : Prop :=
  (∀ r : Byte, decode (0x15#8 ++ r) = .op (.encReply r)) ∧
  (∀ s : State, s.encState = .idle → exec (.encReply 0x00#8) s = .next { s with tx := s.tx ++ [0x06#8] }) ∧
  (∀ s : State, s.encState = .idle → exec (.encReply 0x01#8) s = .next { s with tx := s.tx ++ [0x15#8] }) ∧
  (∀ (r : Byte) (s : State), s.encState = .idle → r ≠ 0x00#8 → r ≠ 0x01#8 →
    exec (.encReply r) s = .next { s with evt := s.evt ||| 0x20#8 }) ∧
  (∀ (r : Byte) (s : State), s.encState ≠ .idle →
    exec (.encReply r) s = .next { s with evt := s.evt ||| 0x10#8 })

/-- Take a command c in 0x01 to 0x04, a payload p of n <= 65535 bytes and a state with the encoder IDLE. If
the ENC operations among a sequence of inputs are ENC.BEGIN c, ENC.LENHI, ENC.LENLO and ENC.DATA of each
byte of p, and nothing in it resets the block, the sequence runs and appends exactly 55 AA c n[15:8]
n[7:0], p, and crc16(p) high byte first, n + 7 bytes, to tx, whatever other units' operations and
illegal words come between. It leaves enc_state = IDLE, enc_cmd = c, enc_len = n, enc_remain = 0 and
enc_crc = crc16(p); if no CNT.CLEAR came between, cnt_tx is one more; if no EVT.ACK did, evt bit 2 is
set. It formalises R117; that an interleaved CNT.CLEAR or EVT.ACK is outside R117's promise on cnt_tx
and evt is the reading of notes/assumptions 15. (41_encoder.md section 3) -/
def Obligations.EncoderBuildsDocFrame : Prop :=
  ∀ (c : Byte) (p : List Byte) (xs : List PortInput) (s : State),
    (c = 0x01#8 ∨ c = 0x02#8 ∨ c = 0x03#8 ∨ c = 0x04#8) → p.length ≤ 65535 → s.encState = .idle →
    opsOf .enc xs = [.encBegin c, .encLenHi (hiByte (BitVec.ofNat 16 p.length)),
      .encLenLo (loByte (BitVec.ofNat 16 p.length))] ++ p.map .encData →
    noReset xs →
    ∃ t, feed xs s = .next t ∧
      t.tx = s.tx ++ ([0x55#8, 0xAA#8, c, hiByte (BitVec.ofNat 16 p.length),
        loByte (BitVec.ofNat 16 p.length)] ++ p ++ [hiByte (crc16 p), loByte (crc16 p)]) ∧
      t.tx.length = s.tx.length + p.length + 7 ∧
      t.encState = .idle ∧ t.encCmd = c ∧ t.encLen = BitVec.ofNat 16 p.length ∧
      t.encRemain = 0x0000#16 ∧ t.encCrc = crc16 p ∧
      (noCntClear xs → t.cntTx = s.cntTx + 1) ∧
      (noEvtAck xs → t.evt.getLsbD 2 = true)

/-- From every state that meets the encoder's invariant (R27's three points; before the payload the running
CRC is that of no bytes; in PAYLOAD tx ends with the frame's header and the enc_len - enc_remain payload
bytes emitted so far, of which enc_crc is the CRC), any step gives a state that meets it. This is the
model's form of R25 and R27, stronger than R27's text by the two clauses on the CRC and tx
(notes/assumptions 12). (10_state.md section 3) -/
def Obligations.EncoderInvariantKept : Prop :=
  ∀ s t : State, EncInv s → step s = .next t → EncInv t

/-- In HUNT0 the byte 0x55 moves to HUNT1 and any other byte adds 1 to cnt_discard and sets evt bit 3. In
HUNT1 the byte 0xAA clears the frame registers (dec_crc to 0xFFFF) and enters CMD; 0x55 adds 1 to
cnt_discard, sets evt bit 3 and stays; any other byte adds 2, sets evt bit 3 and returns to HUNT0. Each
answers the next state so described with everything else, both streams included, unchanged. (R131) -/
def Obligations.DecRxHunting : Prop :=
  (∀ b : Byte, decode (0x20#8 ++ b) = .op (.decRx b)) ∧
  (∀ s : State, s.decState = .hunt0 → exec (.decRx 0x55#8) s = .next { s with decState := .hunt1 }) ∧
  (∀ (b : Byte) (s : State), s.decState = .hunt0 → b ≠ 0x55#8 →
    exec (.decRx b) s = .next { s with cntDiscard := s.cntDiscard + 1, evt := s.evt ||| 0x08#8 }) ∧
  (∀ s : State, s.decState = .hunt1 → exec (.decRx 0xAA#8) s = .next { s with
    decState := .cmd, decCmd := 0x00#8, decLen := 0x0000#16, decCount := 0x0000#16
    decCrc := 0xFFFF#16, decCrcRx := 0x0000#16 }) ∧
  (∀ s : State, s.decState = .hunt1 →
    exec (.decRx 0x55#8) s = .next { s with cntDiscard := s.cntDiscard + 1, evt := s.evt ||| 0x08#8 }) ∧
  (∀ (b : Byte) (s : State), s.decState = .hunt1 → b ≠ 0xAA#8 → b ≠ 0x55#8 →
    exec (.decRx b) s = .next { s with
      decState := .hunt0, cntDiscard := s.cntDiscard + 2, evt := s.evt ||| 0x08#8 })

/-- In CMD the byte becomes dec_cmd unchecked; in LEN_HI dec_len = {b, 0x00}; in LEN_LO dec_len = n =
{dec_len[15:8], b}, and if n > RX_MAX_LEN the frame ends with LEN_ERR (verdict 4 recorded, End emitted,
cnt_rx_bad one more, evt bit 1, HUNT0), else if n = 0 the next state is CRC_HI, else PAYLOAD. Each
answers the next state so described with everything else unchanged. With RX_MAX_LEN = 65535 no length
ends the frame. (R133, R134, R135, R136) -/
def Obligations.DecRxHeader : Prop :=
  (∀ (b : Byte) (s : State), s.decState = .cmd →
    exec (.decRx b) s = .next { s with decCmd := b, decState := .lenHi }) ∧
  (∀ (b : Byte) (s : State), s.decState = .lenHi →
    exec (.decRx b) s = .next { s with decLen := b ++ 0x00#8, decState := .lenLo }) ∧
  (∀ (b : Byte) (s : State) (n : Half), s.decState = .lenLo → n = hiByte s.decLen ++ b →
    s.params.rxMaxLen < n →
    exec (.decRx b) s = .next { s with
      decLen := n, decVerdict := .lenErr, rxo := s.rxo ++ [.frameEnd .lenErr s.decCmd n]
      cntRxBad := s.cntRxBad + 1, evt := s.evt ||| 0x02#8, decState := .hunt0 }) ∧
  (∀ (b : Byte) (s : State) (n : Half), s.decState = .lenLo → n = hiByte s.decLen ++ b →
    n ≤ s.params.rxMaxLen → n = 0x0000#16 →
    exec (.decRx b) s = .next { s with decLen := n, decState := .crcHi }) ∧
  (∀ (b : Byte) (s : State) (n : Half), s.decState = .lenLo → n = hiByte s.decLen ++ b →
    n ≤ s.params.rxMaxLen → n ≠ 0x0000#16 →
    exec (.decRx b) s = .next { s with decLen := n, decState := .payload }) ∧
  (∀ (b : Byte) (s t : State), s.decState = .lenLo → s.params.rxMaxLen = 0xFFFF#16 →
    exec (.decRx b) s = .next t → t.decState ≠ .hunt0)

/-- In PAYLOAD each byte answers the next state with Payload(b) appended to rxo, dec_crc =
crc16_step(dec_crc, b) and dec_count one more; when that makes dec_count equal to dec_len the state is
CRC_HI, otherwise it stays PAYLOAD. Everything else is unchanged. (R137) -/
def Obligations.DecRxPayload : Prop :=
  (∀ (b : Byte) (s : State), s.decState = .payload → s.decCount + 1 ≠ s.decLen →
    exec (.decRx b) s = .next { s with
      rxo := s.rxo ++ [.payload b], decCrc := crc16Step s.decCrc b, decCount := s.decCount + 1 }) ∧
  (∀ (b : Byte) (s : State), s.decState = .payload → s.decCount + 1 = s.decLen →
    exec (.decRx b) s = .next { s with
      rxo := s.rxo ++ [.payload b], decCrc := crc16Step s.decCrc b, decCount := s.decCount + 1
      decState := .crcHi })

/-- In CRC_HI dec_crc_rx = {b, 0x00}. In CRC_LO dec_crc_rx = x = {dec_crc_rx[15:8], b} and the frame ends:
with CRC_ERR if x differs from dec_crc, else with CMD_ERR if dec_cmd is not 0x01 to 0x04, else with OK.
The end records the verdict, emits End(v, dec_cmd, dec_len), adds 1 to cnt_rx_ok and sets evt bit 0 (OK)
or adds 1 to cnt_rx_bad and sets evt bit 1 (otherwise), and returns to HUNT0. Each answers the next
state so described with everything else unchanged. (R138, R139, R140) -/
def Obligations.DecRxChecksumAndVerdict : Prop :=
  (∀ (b : Byte) (s : State), s.decState = .crcHi →
    exec (.decRx b) s = .next { s with decCrcRx := b ++ 0x00#8, decState := .crcLo }) ∧
  (∀ (b : Byte) (s : State) (x : Half), s.decState = .crcLo → x = hiByte s.decCrcRx ++ b → x ≠ s.decCrc →
    exec (.decRx b) s = .next { s with
      decCrcRx := x, decVerdict := .crcErr, rxo := s.rxo ++ [.frameEnd .crcErr s.decCmd s.decLen]
      cntRxBad := s.cntRxBad + 1, evt := s.evt ||| 0x02#8, decState := .hunt0 }) ∧
  (∀ (b : Byte) (s : State) (x : Half), s.decState = .crcLo → x = hiByte s.decCrcRx ++ b → x = s.decCrc →
    ¬(s.decCmd = 0x01#8 ∨ s.decCmd = 0x02#8 ∨ s.decCmd = 0x03#8 ∨ s.decCmd = 0x04#8) →
    exec (.decRx b) s = .next { s with
      decCrcRx := x, decVerdict := .cmdErr, rxo := s.rxo ++ [.frameEnd .cmdErr s.decCmd s.decLen]
      cntRxBad := s.cntRxBad + 1, evt := s.evt ||| 0x02#8, decState := .hunt0 }) ∧
  (∀ (b : Byte) (s : State) (x : Half), s.decState = .crcLo → x = hiByte s.decCrcRx ++ b → x = s.decCrc →
    (s.decCmd = 0x01#8 ∨ s.decCmd = 0x02#8 ∨ s.decCmd = 0x03#8 ∨ s.decCmd = 0x04#8) →
    exec (.decRx b) s = .next { s with
      decCrcRx := x, decVerdict := .ok, rxo := s.rxo ++ [.frameEnd .ok s.decCmd s.decLen]
      cntRxOk := s.cntRxOk + 1, evt := s.evt ||| 0x01#8, decState := .hunt0 })

/-- Every word 0x21xx decodes to DEC.ABORT. In HUNT0 it answers the same state; in HUNT1 the next state with
cnt_discard one more, evt bit 3 set and HUNT0; in frame the next state with verdict ABORTED recorded,
End(ABORTED, dec_cmd, dec_len) emitted, cnt_rx_bad one more, evt bit 1 set and HUNT0. Everything else is
unchanged. (R141) -/
def Obligations.DecAbortResult : Prop :=
  (∀ b : Byte, decode (0x21#8 ++ b) = .op .decAbort) ∧
  (∀ s : State, s.decState = .hunt0 → exec .decAbort s = .next s) ∧
  (∀ s : State, s.decState = .hunt1 → exec .decAbort s = .next { s with
    decState := .hunt0, cntDiscard := s.cntDiscard + 1, evt := s.evt ||| 0x08#8 }) ∧
  (∀ s : State, s.decState ≠ .hunt0 → s.decState ≠ .hunt1 → exec .decAbort s = .next { s with
    decVerdict := .aborted, rxo := s.rxo ++ [.frameEnd .aborted s.decCmd s.decLen]
    cntRxBad := s.cntRxBad + 1, evt := s.evt ||| 0x02#8, decState := .hunt0 })

/-- From every state that meets the decoder's invariant (R30's three points, the payload bytes since the
last preamble match read as the last dec_count payload bytes on RXO; and in the header dec_count is 0;
notes/assumptions 12), any step gives a state that meets it. (10_state.md section 4) -/
def Obligations.DecoderInvariantKept : Prop :=
  ∀ s t : State, DecInv s → step s = .next t → DecInv t

/-- Take a command c in 0x01 to 0x04, a payload p of n <= RX_MAX_LEN bytes and a state in HUNT0. If the DEC
operations among a sequence of inputs are DEC.RX of the n + 7 bytes of DOC's encode(c, p), and nothing
in it resets the block, the sequence runs and emits exactly Payload of each byte of p in order and then
End(OK, c, n); it leaves dec_state = HUNT0, dec_crc = dec_crc_rx = crc16(p) and dec_count = n; if no
CNT.CLEAR came between, cnt_rx_ok is one more. It formalises R144, which feeds the bytes with nothing in
between; that other words may come between, and that the clause on cnt_rx_ok then asks for no CNT.CLEAR,
is the reading of notes/assumptions 15. (42_decoder.md section 1) -/
def Obligations.DecoderRoundTrip : Prop :=
  ∀ (c : Byte) (p : List Byte) (xs : List PortInput) (s : State),
    (c = 0x01#8 ∨ c = 0x02#8 ∨ c = 0x03#8 ∨ c = 0x04#8) → p.length ≤ s.params.rxMaxLen.toNat →
    s.decState = .hunt0 →
    opsOf .dec xs = ([0x55#8, 0xAA#8, c, hiByte (BitVec.ofNat 16 p.length),
      loByte (BitVec.ofNat 16 p.length)] ++ p ++ [hiByte (crc16 p), loByte (crc16 p)]).map .decRx →
    noReset xs →
    ∃ t, feed xs s = .next t ∧
      t.rxo = s.rxo ++ p.map .payload ++ [.frameEnd .ok c (BitVec.ofNat 16 p.length)] ∧
      t.decState = .hunt0 ∧ t.decVerdict = .ok ∧ t.decCrc = crc16 p ∧ t.decCrcRx = crc16 p ∧
      t.decCount = BitVec.ofNat 16 p.length ∧
      (noCntClear xs → t.cntRxOk = s.cntRxOk + 1)

/-- Take the frame bytes of any command byte and of a payload whose length is at most RX_MAX_LEN, flip one
bit of one payload byte and leave header and checksum alone. Fed from HUNT0 with nothing that resets the
block, the decoder emits the payload as received and then End(CRC_ERR, c, n), records the verdict and is
in HUNT0; if no CNT.CLEAR came between, cnt_rx_bad is one more and cnt_rx_ok the same. That other words
may come between, and that the clause on the counters then asks for no CNT.CLEAR, is the reading of
notes/assumptions 15. (42_decoder.md section 1, 95_test_vectors.md section 1) -/
def Obligations.DecoderRejectsFlippedPayloadBit : Prop :=
  ∀ (c b : Byte) (before after : List Byte) (k : Nat) (xs : List PortInput) (s : State) (n : Half),
    k < 8 → (before ++ b :: after).length ≤ s.params.rxMaxLen.toNat →
    n = BitVec.ofNat 16 (before ++ b :: after).length → s.decState = .hunt0 →
    opsOf .dec xs = ([0x55#8, 0xAA#8, c, hiByte n, loByte n] ++ (before ++ (b ^^^ (1#8 <<< k)) :: after) ++
      [hiByte (crc16 (before ++ b :: after)), loByte (crc16 (before ++ b :: after))]).map .decRx →
    noReset xs →
    ∃ t, feed xs s = .next t ∧
      t.rxo = s.rxo ++ (before ++ (b ^^^ (1#8 <<< k)) :: after).map .payload ++ [.frameEnd .crcErr c n] ∧
      t.decVerdict = .crcErr ∧ t.decState = .hunt0 ∧
      (noCntClear xs → t.cntRxBad = s.cntRxBad + 1 ∧ t.cntRxOk = s.cntRxOk)

/-- From HUNT0, feed garbage in which no byte is 0x55, then k stray 0x55 bytes, then a legal frame within
RX_MAX_LEN, with nothing that resets the block between: the decoder emits exactly that frame's events,
ends in HUNT0 with verdict OK, and, if no CNT.CLEAR came between, cnt_discard has grown (modulo 2^16) by
the number of garbage and stray bytes. That other words may come between, and that the clause on
cnt_discard then asks for no CNT.CLEAR, is the reading of notes/assumptions 15. (42_decoder.md section
1, 92_eei_decisions.md D18) -/
def Obligations.DecoderSyncsThroughGarbage : Prop :=
  ∀ (g : List Byte) (k : Nat) (c : Byte) (p : List Byte) (xs : List PortInput) (s : State),
    (∀ b ∈ g, b ≠ 0x55#8) → (c = 0x01#8 ∨ c = 0x02#8 ∨ c = 0x03#8 ∨ c = 0x04#8) →
    p.length ≤ s.params.rxMaxLen.toNat → s.decState = .hunt0 →
    opsOf .dec xs = (g ++ List.replicate k 0x55#8 ++ frameBytes c p).map .decRx → noReset xs →
    ∃ t, feed xs s = .next t ∧
      t.rxo = s.rxo ++ p.map .payload ++ [.frameEnd .ok c (BitVec.ofNat 16 p.length)] ∧
      t.decState = .hunt0 ∧ t.decVerdict = .ok ∧
      (noCntClear xs → t.cntDiscard = s.cntDiscard + BitVec.ofNat 16 (g.length + k))

/-- ENC.FRAME of an n-byte payload expands to n + 3 operations, the frame has n + 7 bytes, and decoding it
takes n + 7 DEC.RX operations; with 512, 512 and 276 payload bytes the frames have 519, 519 and 283
bytes. (70_reset_and_hazards.md section 3) -/
def Obligations.FrameSizesInSteps : Prop :=
  (∀ (c : Byte) (p : List Byte), (expandPseudo (.encFrame c p)).length = p.length + 3 ∧
    (frameBytes c p).length = p.length + 7 ∧
    (expandPseudo (.decStream (frameBytes c p))).length = p.length + 7) ∧
  (∀ (c b : Byte), (frameBytes c (List.replicate 512 b)).length = 519 ∧
    (frameBytes c (List.replicate 276 b)).length = 283)

/-- Every word 0x22bb decodes to RPL.RX bb. In every state it answers the next state with rpl_byte = b,
rpl_class ACK_R for 0x06, NAK_R for 0x15 and GARBAGE for any other byte, and evt bit 7 set; everything
else, both streams included, is unchanged, so a second RPL.RX overwrites the first. (R150) -/
def Obligations.RplRxResult : Prop :=
  (∀ b : Byte, decode (0x22#8 ++ b) = .op (.rplRx b)) ∧
  (∀ s : State, exec (.rplRx 0x06#8) s =
    .next { s with rplByte := 0x06#8, rplClass := .ackR, evt := s.evt ||| 0x80#8 }) ∧
  (∀ s : State, exec (.rplRx 0x15#8) s =
    .next { s with rplByte := 0x15#8, rplClass := .nakR, evt := s.evt ||| 0x80#8 }) ∧
  (∀ (b : Byte) (s : State), b ≠ 0x06#8 → b ≠ 0x15#8 → exec (.rplRx b) s =
    .next { s with rplByte := b, rplClass := .garbage, evt := s.evt ||| 0x80#8 })

/-- Every word 0x00xx decodes to NOP. In every state NOP answers that same state as the next one: no field
changes and nothing is emitted. (R160) -/
def Obligations.NopResult : Prop :=
  (∀ b : Byte, decode (0x00#8 ++ b) = .op .nop) ∧ (∀ s : State, exec .nop s = .next s)

/-- Every word 0x31mm decodes to IRQ.SET mm. In every state it answers the next state with irq_en = m and
everything else unchanged; irq is then 1 exactly when evt AND m is not 0, and mask 0x00 masks every
source. (R161) -/
def Obligations.IrqSetResult : Prop :=
  (∀ m : Byte, decode (0x31#8 ++ m) = .op (.irqSet m)) ∧
  (∀ (m : Byte) (s : State), exec (.irqSet m) s = .next { s with irqEn := m }) ∧
  (∀ (m : Byte) (s t : State), exec (.irqSet m) s = .next t → (irq t = true ↔ s.evt &&& m ≠ 0x00#8)) ∧
  (∀ s t : State, exec (.irqSet 0x00#8) s = .next t → irq t = false)

/-- Every word 0x30mm decodes to EVT.ACK mm. In every state it answers the next state with evt = evt AND NOT
m and everything else unchanged: a bit of evt is 1 afterwards exactly when it was 1 and the mask's bit
is 0; mask 0x00 changes nothing. (R162) -/
def Obligations.EvtAckResult : Prop :=
  (∀ m : Byte, decode (0x30#8 ++ m) = .op (.evtAck m)) ∧
  (∀ (m : Byte) (s : State), exec (.evtAck m) s = .next { s with evt := s.evt &&& ~~~m }) ∧
  (∀ (m : Byte) (s t : State), exec (.evtAck m) s = .next t →
    ∀ k < 8, t.evt.getLsbD k = (s.evt.getLsbD k && !m.getLsbD k)) ∧
  (∀ s : State, exec (.evtAck 0x00#8) s = .next s)

/-- Every word 0x32xx decodes to CNT.CLEAR. In every state it answers the next state with cnt_tx, cnt_rx_ok,
cnt_rx_bad and cnt_discard all 0 and every other field unchanged. (R163) -/
def Obligations.CntClearResult : Prop :=
  (∀ b : Byte, decode (0x32#8 ++ b) = .op .cntClear) ∧
  (∀ s : State, exec .cntClear s = .next { s with
    cntTx := 0x0000#16, cntRxOk := 0x0000#16, cntRxBad := 0x0000#16, cntDiscard := 0x0000#16 })

/-- In every state the irq output is 1 exactly when some bit is 1 in both evt and irq_en, and IRQ_STAT
(address 0x0D) reads that level in bit 0 with every other bit 0. An EVT.ACK that clears the last enabled
pending bit, and an IRQ.SET that masks every pending bit, make it fall. (R183) -/
def Obligations.IrqIsEnabledAndPending : Prop :=
  (∀ s : State, irq s = true ↔ ∃ k < 8, s.evt.getLsbD k = true ∧ s.irqEn.getLsbD k = true) ∧
  (∀ s : State, readReg 0x0D#5 s = if irq s = true then 0x0001#16 else 0x0000#16) ∧
  (∀ (m : Byte) (s t : State), exec (.evtAck m) s = .next t →
    (∀ k < 8, s.evt.getLsbD k = true → s.irqEn.getLsbD k = true → m.getLsbD k = true) → irq t = false) ∧
  (∀ (m : Byte) (s t : State), exec (.irqSet m) s = .next t → s.evt &&& m = 0x00#8 → irq t = false)

/-- In every state each of the 32 addresses returns what R41 lists: the whole registers; the packed
registers with their state codes in the places given and 0 in every unused bit; 0 in the upper byte of
EVT, IRQ_EN and IRQ_STAT; RX_MAX_LEN at 0x12; and 0x0000 at 0x13 to 0x1F. The state codes are those of
R26, R29, R31 and R33. (R41, R46, R47) -/
def Obligations.ReadMapValues : Prop :=
  (∀ s : State,
    readReg 0x00#5 s = s.crcVal ∧ readReg 0x01#5 s = s.encCmd ++ 0#6 ++ encStateCode s.encState ∧
    readReg 0x02#5 s = s.encLen ∧ readReg 0x03#5 s = s.encRemain ∧ readReg 0x04#5 s = s.encCrc ∧
    readReg 0x05#5 s = s.decCmd ++ 0#1 ++ verdictCode s.decVerdict ++ 0#1 ++ decStateCode s.decState ∧
    readReg 0x06#5 s = s.decLen ∧ readReg 0x07#5 s = s.decCount ∧ readReg 0x08#5 s = s.decCrc ∧
    readReg 0x09#5 s = s.decCrcRx ∧ readReg 0x0A#5 s = s.rplByte ++ 0#6 ++ rplClassCode s.rplClass ∧
    readReg 0x0B#5 s = 0#8 ++ s.evt ∧ readReg 0x0C#5 s = 0#8 ++ s.irqEn ∧
    readReg 0x0D#5 s = (if irq s = true then 1#16 else 0#16) ∧ readReg 0x0E#5 s = s.cntTx ∧
    readReg 0x0F#5 s = s.cntRxOk ∧ readReg 0x10#5 s = s.cntRxBad ∧ readReg 0x11#5 s = s.cntDiscard ∧
    readReg 0x12#5 s = s.params.rxMaxLen ∧ (∀ a : ReadAddr, 0x13#5 ≤ a → readReg a s = 0x0000#16)) ∧
  (encStateCode .idle, encStateCode .lenHi, encStateCode .lenLo, encStateCode .payload) =
    (0#2, 1#2, 2#2, 3#2) ∧
  (decStateCode .hunt0, decStateCode .hunt1, decStateCode .cmd, decStateCode .lenHi) =
    (0#3, 1#3, 2#3, 3#3) ∧
  (decStateCode .lenLo, decStateCode .payload, decStateCode .crcHi, decStateCode .crcLo) =
    (4#3, 5#3, 6#3, 7#3) ∧
  (verdictCode .none, verdictCode .ok, verdictCode .crcErr) = (0#3, 1#3, 2#3) ∧
  (verdictCode .cmdErr, verdictCode .lenErr, verdictCode .aborted) = (3#3, 4#3, 5#3) ∧
  (rplClassCode .none, rplClassCode .ackR, rplClassCode .nakR, rplClassCode .garbage) =
    (0#2, 1#2, 2#2, 3#2)

/-- For every operation and state: if a field differs in the next state, the operation is one of those R43
lists for that field (for evt: a bit goes from 1 to 0 only under EVT.ACK and SOFT.RESET); ENC.ABORT
never writes enc_cmd, enc_len or enc_crc. Hardware reset writes what SOFT.RESET writes. (R43) -/
def Obligations.FieldsWrittenOnlyByTheirOperations : Prop :=
  (∀ (i : Instr) (s t : State), exec i s = .next t →
    (t.crcVal ≠ s.crcVal → i.opcode ∈ [0x01#8, 0x02#8, 0x3F#8]) ∧
    (t.encState ≠ s.encState ∨ t.encRemain ≠ s.encRemain →
      i.opcode ∈ [0x10#8, 0x11#8, 0x12#8, 0x13#8, 0x14#8, 0x3F#8]) ∧
    (t.encCmd ≠ s.encCmd ∨ t.encLen ≠ s.encLen ∨ t.encCrc ≠ s.encCrc →
      i.opcode ∈ [0x10#8, 0x11#8, 0x12#8, 0x13#8, 0x3F#8]) ∧
    (t.decState ≠ s.decState ∨ t.decCmd ≠ s.decCmd ∨ t.decLen ≠ s.decLen ∨ t.decCount ≠ s.decCount ∨
      t.decCrc ≠ s.decCrc ∨ t.decCrcRx ≠ s.decCrcRx ∨ t.decVerdict ≠ s.decVerdict →
      i.opcode ∈ [0x20#8, 0x21#8, 0x3F#8]) ∧
    (t.rplClass ≠ s.rplClass ∨ t.rplByte ≠ s.rplByte → i.opcode ∈ [0x22#8, 0x3F#8]) ∧
    (s.evt &&& ~~~t.evt ≠ 0x00#8 → i.opcode ∈ [0x30#8, 0x3F#8]) ∧
    (t.irqEn ≠ s.irqEn → i.opcode ∈ [0x31#8, 0x3F#8]) ∧
    (t.cntTx ≠ s.cntTx → i.opcode ∈ [0x12#8, 0x13#8, 0x32#8, 0x3F#8]) ∧
    (t.cntRxOk ≠ s.cntRxOk ∨ t.cntRxBad ≠ s.cntRxBad ∨ t.cntDiscard ≠ s.cntDiscard →
      i.opcode ∈ [0x20#8, 0x21#8, 0x32#8, 0x3F#8]) ∧
    (t.tx ≠ s.tx → i.opcode ∈ [0x12#8, 0x13#8, 0x15#8]) ∧
    (t.rxo ≠ s.rxo → i.opcode ∈ [0x20#8, 0x21#8]) ∧
    t.params = s.params ∧ t.port = s.port) ∧
  (∀ s : State, execInput .hwReset s = exec .softReset s)

/-- For every operation but SOFT.RESET and every datapath unit other than its own: replace that unit's
datapath fields and stream by arbitrary ones before the operation, and the next state is the original
next state with just those fields and that stream replaced. So the operation neither writes them nor
lets anything it does depend on them. (R21) -/
def Obligations.UnitsAreIndependent : Prop :=
  ∀ (i : Instr) (u : BlockUnit) (r s t : State), unitOf i ≠ u → i ≠ .softReset →
    exec i s = .next t → exec i (copyUnit u r s) = .next (copyUnit u r t)

/-- For every operation: replace evt and irq_en by arbitrary values before it, and the next state is the
original next state in every other field and in both streams; whether each event bit is newly raised is
the same too. (R36) -/
def Obligations.StatusRegistersAreNeverRead : Prop :=
  ∀ (i : Instr) (s t : State) (e m : Byte), exec i s = .next t →
    ∃ t', exec i { s with evt := e, irqEn := m } = .next t' ∧
      { t' with evt := t.evt, irqEn := t.irqEn } = t ∧
      (i.opcode ≠ 0x3F#8 → ∀ k < 8, s.evt.getLsbD k = false → e.getLsbD k = false →
        t'.evt.getLsbD k = t.evt.getLsbD k)

/-- Two words that decode to operations of different datapath units (CRC, ENC, DEC, RPL), or one such word
and an illegal word, leave the same final state, tx and rxo in either order. (20_memory.md section 5) -/
def Obligations.DatapathOperationsCommute : Prop :=
  ∀ (v w : OpWord) (s : State),
    ((∃ i j, decode v = .op i ∧ decode w = .op j ∧ unitOf i ≠ .ctl ∧ unitOf j ≠ .ctl ∧ unitOf i ≠ unitOf j) ∨
     (∃ op j, decode v = .illegal op ∧ decode w = .op j ∧ unitOf j ≠ .ctl)) →
    ∃ t, feed [.word v, .word w] s = .next t ∧ feed [.word w, .word v] s = .next t

/-- Whatever a step does, reset included, tx afterwards is tx before with at most 7 bytes appended and rxo
is rxo before with at most one event appended; both are empty when the model is built. (R39) -/
def Obligations.StreamsOnlyGrow : Prop :=
  (∀ s t : State, step s = .next t →
    (∃ bs : List Byte, t.tx = s.tx ++ bs ∧ bs.length ≤ 7) ∧
    (∃ es : List RxEvent, t.rxo = s.rxo ++ es ∧ es.length ≤ 1)) ∧
  State.reset.tx = [] ∧ State.reset.rxo = []

/-- Whatever a step does, the bits of evt that were 0 before and are 1 after are none or exactly one.
(60_exceptions.md section 2) -/
def Obligations.AtMostOneEventPerStep : Prop :=
  ∀ s t : State, step s = .next t →
    t.evt &&& ~~~s.evt = 0x00#8 ∨ ∃ e : Evt, t.evt &&& ~~~s.evt = evtMask e

/-- If an operation newly sets evt bit 4 or bit 5, the next state is the state before with just that bit
set: all encoder fields, cnt_tx and tx are as they were. (60_exceptions.md section 1, 41_encoder.md
section 3) -/
def Obligations.RejectedOperationsArePrecise : Prop :=
  ∀ (i : Instr) (s t : State) (k : Nat), exec i s = .next t → k = 4 ∨ k = 5 →
    s.evt.getLsbD k = false → t.evt.getLsbD k = true →
    t = { s with evt := s.evt ||| (1#8 <<< k) }

/-- Applying NOP, CRC.INIT, ENC.ABORT, DEC.ABORT, IRQ.SET and EVT.ACK with the same operand, CNT.CLEAR or
SOFT.RESET to the state it has just given gives that state again; so does an illegal word. (20_memory.md
section 3) -/
def Obligations.IdempotentOperations : Prop :=
  (∀ (i : Instr) (s t : State),
    i.opcode ∈ [0x00#8, 0x01#8, 0x14#8, 0x21#8, 0x31#8, 0x30#8, 0x32#8, 0x3F#8] →
    exec i s = .next t → exec i t = .next t) ∧
  (∀ (op : Byte) (s t : State), execIllegal op s = .next t → execIllegal op t = .next t)

/-- Whatever a step does, RX_MAX_LEN, and what address 0x12 reads, stay as they were, and the port has lost
just its first input. That the parameter and the port are held in State is the model's choice
(notes/assumptions 1 and 2). (00_scope.md section 3, 10_state.md section 1) -/
def Obligations.BuildParameterNeverWritten : Prop :=
  ∀ s t : State, step s = .next t →
    t.params = s.params ∧ readReg 0x12#5 t = readReg 0x12#5 s ∧ t.port = s.port.tail

/-- If a step emits End(v, cmd, len), then v is not NONE, dec_verdict = v, cmd = dec_cmd and len = dec_len,
the decoder is in HUNT0, and either v is OK, cnt_rx_ok is one more, cnt_rx_bad is the same and evt bit 0
is set, or v is another verdict, cnt_rx_bad is one more, cnt_rx_ok is the same and evt bit 1 is set. If
a step emits no End, neither counter goes up. (10_state.md section 4, 60_exceptions.md section 1) -/
def Obligations.VerdictsAreCounted : Prop :=
  (∀ (s t : State) (v : Verdict) (cmd : Byte) (len : Half), step s = .next t →
    t.rxo = s.rxo ++ [.frameEnd v cmd len] →
    v ≠ .none ∧ t.decVerdict = v ∧ cmd = t.decCmd ∧ len = t.decLen ∧ t.decState = .hunt0 ∧
    (v = .ok → t.cntRxOk = s.cntRxOk + 1 ∧ t.cntRxBad = s.cntRxBad ∧ t.evt.getLsbD 0 = true) ∧
    (v ≠ .ok → t.cntRxBad = s.cntRxBad + 1 ∧ t.cntRxOk = s.cntRxOk ∧ t.evt.getLsbD 1 = true)) ∧
  (∀ s t : State, step s = .next t →
    (∀ v cmd len, t.rxo ≠ s.rxo ++ [.frameEnd v cmd len]) →
    (t.cntRxOk = s.cntRxOk ∨ t.cntRxOk = 0x0000#16) ∧ (t.cntRxBad = s.cntRxBad ∨ t.cntRxBad = 0x0000#16))

/-- For every build parameter, the reset state meets the encoder's and the decoder's invariants
(notes/assumptions 12), and no End event in it carries NONE. (10_state.md section 3, 10_state.md section
4, 70_reset_and_hazards.md section 1) -/
def Obligations.InvariantsHoldAtReset : Prop :=
  ∀ p : Params, EncInv { State.reset with params := p } ∧ DecInv { State.reset with params := p } ∧
    EndsHaveVerdict { State.reset with params := p }

/-- In every state that a block of any build can reach from reset, with any inputs arriving at any time,
R27's encoder invariants and R30's decoder invariants, in the model's form of them (notes/assumptions
12), hold, and no End event on RXO carries the verdict NONE. (10_state.md section 3, 10_state.md section
4) -/
def Obligations.InvariantsHoldWhenReachable : Prop :=
  ∀ s : State, Reachable s → EncInv s ∧ DecInv s ∧ EndsHaveVerdict s

/-- From every state in which no End event on RXO carries the verdict NONE, any step gives a state in which
none does. With the steps of the encoder's and the decoder's invariants it makes the three together an
invariant that every step keeps. (10_state.md section 4, 10_state.md section 7) -/
def Obligations.EndVerdictsKept : Prop :=
  ∀ s t : State, EndsHaveVerdict s → step s = .next t → EndsHaveVerdict t
end

