-- ==== Sys2Proof/Laws/Bytes.lean ====
section
/-! SUPPORT. Slicing and joining bytes, the fields of an operation word, and the fold of the CRC. -/

namespace Sys2Proof.Machine

@[simp] theorem hiByte_joinBytes (h l : Byte) : hiByte (joinBytes h l) = h := by
  apply BitVec.eq_of_getLsbD_eq
  intro i hi
  rw [hiByte, joinBytes, BitVec.getLsbD_extractLsb']
  erw [BitVec.getLsbD_append]
  simp [hi]

@[simp] theorem loByte_joinBytes (h l : Byte) : loByte (joinBytes h l) = l := by
  apply BitVec.eq_of_getLsbD_eq
  intro i hi
  rw [loByte, joinBytes, BitVec.getLsbD_extractLsb']
  erw [BitVec.getLsbD_append]
  simp [hi]

@[simp] theorem joinBytes_hi_lo (v : Half) : joinBytes (hiByte v) (loByte v) = v := by
  apply BitVec.eq_of_getLsbD_eq
  intro i hi
  rw [hiByte, loByte, joinBytes]
  erw [BitVec.getLsbD_append]
  by_cases h : i < 8
  · simp [h]
  · simp [h, show i - 8 < 8 by omega, show 8 + (i - 8) = i by omega]

@[simp] theorem setLow_withHigh (h l : Byte) : setLow (withHigh h) l = joinBytes h l := by
  simp [setLow, withHigh]

@[simp] theorem crc16_nil : crc16 [] = 0xFFFF#16 := rfl

theorem crc16_eq_foldl (d : List Byte) : crc16 d = d.foldl crc16Step 0xFFFF#16 := by
  simp [crc16, crcXorOut, crcInitValue]

/-- One more byte is one more step (R101). -/
theorem crc16_concat (d : List Byte) (b : Byte) : crc16 (d ++ [b]) = crc16Step (crc16 d) b := by
  simp [crc16_eq_foldl]

theorem frameBytes_length (c : Byte) (p : List Byte) : (frameBytes c p).length = p.length + 7 := by
  simp [frameBytes, frameHeader, frameTrailer]

end Sys2Proof.Machine

namespace Sys2Proof

@[simp] theorem opField_append (op imm : Byte) : opField (op ++ imm) = op :=
  Machine.hiByte_joinBytes op imm

@[simp] theorem immField_append (op imm : Byte) : immField (op ++ imm) = imm :=
  Machine.loByte_joinBytes op imm

@[simp] theorem opField_append_immField (w : OpWord) : opField w ++ immField w = w :=
  Machine.joinBytes_hi_lo w

end Sys2Proof
end

