-- ==== Sys2Proof/Laws/State.lean ====
section
/-! SUPPORT. One lemma per field of State for each shared update, true by rfl, so that no later proof
unfolds a record update. -/

namespace Sys2Proof.Machine

/-! ### `emitTx` -/

@[simp] theorem emitTx_crcVal (bs : List Byte) (s : State) :
    (emitTx bs s).crcVal = s.crcVal := rfl
@[simp] theorem emitTx_encState (bs : List Byte) (s : State) :
    (emitTx bs s).encState = s.encState := rfl
@[simp] theorem emitTx_encCmd (bs : List Byte) (s : State) :
    (emitTx bs s).encCmd = s.encCmd := rfl
@[simp] theorem emitTx_encLen (bs : List Byte) (s : State) :
    (emitTx bs s).encLen = s.encLen := rfl
@[simp] theorem emitTx_encRemain (bs : List Byte) (s : State) :
    (emitTx bs s).encRemain = s.encRemain := rfl
@[simp] theorem emitTx_encCrc (bs : List Byte) (s : State) :
    (emitTx bs s).encCrc = s.encCrc := rfl
@[simp] theorem emitTx_decState (bs : List Byte) (s : State) :
    (emitTx bs s).decState = s.decState := rfl
@[simp] theorem emitTx_decCmd (bs : List Byte) (s : State) :
    (emitTx bs s).decCmd = s.decCmd := rfl
@[simp] theorem emitTx_decLen (bs : List Byte) (s : State) :
    (emitTx bs s).decLen = s.decLen := rfl
@[simp] theorem emitTx_decCount (bs : List Byte) (s : State) :
    (emitTx bs s).decCount = s.decCount := rfl
@[simp] theorem emitTx_decCrc (bs : List Byte) (s : State) :
    (emitTx bs s).decCrc = s.decCrc := rfl
@[simp] theorem emitTx_decCrcRx (bs : List Byte) (s : State) :
    (emitTx bs s).decCrcRx = s.decCrcRx := rfl
@[simp] theorem emitTx_decVerdict (bs : List Byte) (s : State) :
    (emitTx bs s).decVerdict = s.decVerdict := rfl
@[simp] theorem emitTx_rplClass (bs : List Byte) (s : State) :
    (emitTx bs s).rplClass = s.rplClass := rfl
@[simp] theorem emitTx_rplByte (bs : List Byte) (s : State) :
    (emitTx bs s).rplByte = s.rplByte := rfl
@[simp] theorem emitTx_evt (bs : List Byte) (s : State) :
    (emitTx bs s).evt = s.evt := rfl
@[simp] theorem emitTx_irqEn (bs : List Byte) (s : State) :
    (emitTx bs s).irqEn = s.irqEn := rfl
@[simp] theorem emitTx_cntTx (bs : List Byte) (s : State) :
    (emitTx bs s).cntTx = s.cntTx := rfl
@[simp] theorem emitTx_cntRxOk (bs : List Byte) (s : State) :
    (emitTx bs s).cntRxOk = s.cntRxOk := rfl
@[simp] theorem emitTx_cntRxBad (bs : List Byte) (s : State) :
    (emitTx bs s).cntRxBad = s.cntRxBad := rfl
@[simp] theorem emitTx_cntDiscard (bs : List Byte) (s : State) :
    (emitTx bs s).cntDiscard = s.cntDiscard := rfl
@[simp] theorem emitTx_tx (bs : List Byte) (s : State) :
    (emitTx bs s).tx = s.tx ++ bs := rfl
@[simp] theorem emitTx_rxo (bs : List Byte) (s : State) :
    (emitTx bs s).rxo = s.rxo := rfl
@[simp] theorem emitTx_params (bs : List Byte) (s : State) :
    (emitTx bs s).params = s.params := rfl
@[simp] theorem emitTx_port (bs : List Byte) (s : State) :
    (emitTx bs s).port = s.port := rfl

/-! ### `emitRx` -/

@[simp] theorem emitRx_crcVal (e : RxEvent) (s : State) :
    (emitRx e s).crcVal = s.crcVal := rfl
@[simp] theorem emitRx_encState (e : RxEvent) (s : State) :
    (emitRx e s).encState = s.encState := rfl
@[simp] theorem emitRx_encCmd (e : RxEvent) (s : State) :
    (emitRx e s).encCmd = s.encCmd := rfl
@[simp] theorem emitRx_encLen (e : RxEvent) (s : State) :
    (emitRx e s).encLen = s.encLen := rfl
@[simp] theorem emitRx_encRemain (e : RxEvent) (s : State) :
    (emitRx e s).encRemain = s.encRemain := rfl
@[simp] theorem emitRx_encCrc (e : RxEvent) (s : State) :
    (emitRx e s).encCrc = s.encCrc := rfl
@[simp] theorem emitRx_decState (e : RxEvent) (s : State) :
    (emitRx e s).decState = s.decState := rfl
@[simp] theorem emitRx_decCmd (e : RxEvent) (s : State) :
    (emitRx e s).decCmd = s.decCmd := rfl
@[simp] theorem emitRx_decLen (e : RxEvent) (s : State) :
    (emitRx e s).decLen = s.decLen := rfl
@[simp] theorem emitRx_decCount (e : RxEvent) (s : State) :
    (emitRx e s).decCount = s.decCount := rfl
@[simp] theorem emitRx_decCrc (e : RxEvent) (s : State) :
    (emitRx e s).decCrc = s.decCrc := rfl
@[simp] theorem emitRx_decCrcRx (e : RxEvent) (s : State) :
    (emitRx e s).decCrcRx = s.decCrcRx := rfl
@[simp] theorem emitRx_decVerdict (e : RxEvent) (s : State) :
    (emitRx e s).decVerdict = s.decVerdict := rfl
@[simp] theorem emitRx_rplClass (e : RxEvent) (s : State) :
    (emitRx e s).rplClass = s.rplClass := rfl
@[simp] theorem emitRx_rplByte (e : RxEvent) (s : State) :
    (emitRx e s).rplByte = s.rplByte := rfl
@[simp] theorem emitRx_evt (e : RxEvent) (s : State) :
    (emitRx e s).evt = s.evt := rfl
@[simp] theorem emitRx_irqEn (e : RxEvent) (s : State) :
    (emitRx e s).irqEn = s.irqEn := rfl
@[simp] theorem emitRx_cntTx (e : RxEvent) (s : State) :
    (emitRx e s).cntTx = s.cntTx := rfl
@[simp] theorem emitRx_cntRxOk (e : RxEvent) (s : State) :
    (emitRx e s).cntRxOk = s.cntRxOk := rfl
@[simp] theorem emitRx_cntRxBad (e : RxEvent) (s : State) :
    (emitRx e s).cntRxBad = s.cntRxBad := rfl
@[simp] theorem emitRx_cntDiscard (e : RxEvent) (s : State) :
    (emitRx e s).cntDiscard = s.cntDiscard := rfl
@[simp] theorem emitRx_tx (e : RxEvent) (s : State) :
    (emitRx e s).tx = s.tx := rfl
@[simp] theorem emitRx_rxo (e : RxEvent) (s : State) :
    (emitRx e s).rxo = s.rxo ++ [e] := rfl
@[simp] theorem emitRx_params (e : RxEvent) (s : State) :
    (emitRx e s).params = s.params := rfl
@[simp] theorem emitRx_port (e : RxEvent) (s : State) :
    (emitRx e s).port = s.port := rfl

/-! ### `raise` -/

@[simp] theorem raise_crcVal (e : Evt) (s : State) :
    (raise e s).crcVal = s.crcVal := rfl
@[simp] theorem raise_encState (e : Evt) (s : State) :
    (raise e s).encState = s.encState := rfl
@[simp] theorem raise_encCmd (e : Evt) (s : State) :
    (raise e s).encCmd = s.encCmd := rfl
@[simp] theorem raise_encLen (e : Evt) (s : State) :
    (raise e s).encLen = s.encLen := rfl
@[simp] theorem raise_encRemain (e : Evt) (s : State) :
    (raise e s).encRemain = s.encRemain := rfl
@[simp] theorem raise_encCrc (e : Evt) (s : State) :
    (raise e s).encCrc = s.encCrc := rfl
@[simp] theorem raise_decState (e : Evt) (s : State) :
    (raise e s).decState = s.decState := rfl
@[simp] theorem raise_decCmd (e : Evt) (s : State) :
    (raise e s).decCmd = s.decCmd := rfl
@[simp] theorem raise_decLen (e : Evt) (s : State) :
    (raise e s).decLen = s.decLen := rfl
@[simp] theorem raise_decCount (e : Evt) (s : State) :
    (raise e s).decCount = s.decCount := rfl
@[simp] theorem raise_decCrc (e : Evt) (s : State) :
    (raise e s).decCrc = s.decCrc := rfl
@[simp] theorem raise_decCrcRx (e : Evt) (s : State) :
    (raise e s).decCrcRx = s.decCrcRx := rfl
@[simp] theorem raise_decVerdict (e : Evt) (s : State) :
    (raise e s).decVerdict = s.decVerdict := rfl
@[simp] theorem raise_rplClass (e : Evt) (s : State) :
    (raise e s).rplClass = s.rplClass := rfl
@[simp] theorem raise_rplByte (e : Evt) (s : State) :
    (raise e s).rplByte = s.rplByte := rfl
@[simp] theorem raise_evt (e : Evt) (s : State) :
    (raise e s).evt = setEvt s.evt e := rfl
@[simp] theorem raise_irqEn (e : Evt) (s : State) :
    (raise e s).irqEn = s.irqEn := rfl
@[simp] theorem raise_cntTx (e : Evt) (s : State) :
    (raise e s).cntTx = s.cntTx := rfl
@[simp] theorem raise_cntRxOk (e : Evt) (s : State) :
    (raise e s).cntRxOk = s.cntRxOk := rfl
@[simp] theorem raise_cntRxBad (e : Evt) (s : State) :
    (raise e s).cntRxBad = s.cntRxBad := rfl
@[simp] theorem raise_cntDiscard (e : Evt) (s : State) :
    (raise e s).cntDiscard = s.cntDiscard := rfl
@[simp] theorem raise_tx (e : Evt) (s : State) :
    (raise e s).tx = s.tx := rfl
@[simp] theorem raise_rxo (e : Evt) (s : State) :
    (raise e s).rxo = s.rxo := rfl
@[simp] theorem raise_params (e : Evt) (s : State) :
    (raise e s).params = s.params := rfl
@[simp] theorem raise_port (e : Evt) (s : State) :
    (raise e s).port = s.port := rfl

/-! ### `finishTx` -/

@[simp] theorem finishTx_crcVal (s : State) :
    (finishTx s).crcVal = s.crcVal := rfl
@[simp] theorem finishTx_encState (s : State) :
    (finishTx s).encState = .idle := rfl
@[simp] theorem finishTx_encCmd (s : State) :
    (finishTx s).encCmd = s.encCmd := rfl
@[simp] theorem finishTx_encLen (s : State) :
    (finishTx s).encLen = s.encLen := rfl
@[simp] theorem finishTx_encRemain (s : State) :
    (finishTx s).encRemain = s.encRemain := rfl
@[simp] theorem finishTx_encCrc (s : State) :
    (finishTx s).encCrc = s.encCrc := rfl
@[simp] theorem finishTx_decState (s : State) :
    (finishTx s).decState = s.decState := rfl
@[simp] theorem finishTx_decCmd (s : State) :
    (finishTx s).decCmd = s.decCmd := rfl
@[simp] theorem finishTx_decLen (s : State) :
    (finishTx s).decLen = s.decLen := rfl
@[simp] theorem finishTx_decCount (s : State) :
    (finishTx s).decCount = s.decCount := rfl
@[simp] theorem finishTx_decCrc (s : State) :
    (finishTx s).decCrc = s.decCrc := rfl
@[simp] theorem finishTx_decCrcRx (s : State) :
    (finishTx s).decCrcRx = s.decCrcRx := rfl
@[simp] theorem finishTx_decVerdict (s : State) :
    (finishTx s).decVerdict = s.decVerdict := rfl
@[simp] theorem finishTx_rplClass (s : State) :
    (finishTx s).rplClass = s.rplClass := rfl
@[simp] theorem finishTx_rplByte (s : State) :
    (finishTx s).rplByte = s.rplByte := rfl
@[simp] theorem finishTx_evt (s : State) :
    (finishTx s).evt = setEvt s.evt .txDone := rfl
@[simp] theorem finishTx_irqEn (s : State) :
    (finishTx s).irqEn = s.irqEn := rfl
@[simp] theorem finishTx_cntTx (s : State) :
    (finishTx s).cntTx = s.cntTx + 1 := rfl
@[simp] theorem finishTx_cntRxOk (s : State) :
    (finishTx s).cntRxOk = s.cntRxOk := rfl
@[simp] theorem finishTx_cntRxBad (s : State) :
    (finishTx s).cntRxBad = s.cntRxBad := rfl
@[simp] theorem finishTx_cntDiscard (s : State) :
    (finishTx s).cntDiscard = s.cntDiscard := rfl
@[simp] theorem finishTx_tx (s : State) :
    (finishTx s).tx = s.tx ++ frameTrailer s.encCrc := rfl
@[simp] theorem finishTx_rxo (s : State) :
    (finishTx s).rxo = s.rxo := rfl
@[simp] theorem finishTx_params (s : State) :
    (finishTx s).params = s.params := rfl
@[simp] theorem finishTx_port (s : State) :
    (finishTx s).port = s.port := rfl

/-! ### `discardBytes` -/

@[simp] theorem discardBytes_crcVal (n : Half) (s : State) :
    (discardBytes n s).crcVal = s.crcVal := rfl
@[simp] theorem discardBytes_encState (n : Half) (s : State) :
    (discardBytes n s).encState = s.encState := rfl
@[simp] theorem discardBytes_encCmd (n : Half) (s : State) :
    (discardBytes n s).encCmd = s.encCmd := rfl
@[simp] theorem discardBytes_encLen (n : Half) (s : State) :
    (discardBytes n s).encLen = s.encLen := rfl
@[simp] theorem discardBytes_encRemain (n : Half) (s : State) :
    (discardBytes n s).encRemain = s.encRemain := rfl
@[simp] theorem discardBytes_encCrc (n : Half) (s : State) :
    (discardBytes n s).encCrc = s.encCrc := rfl
@[simp] theorem discardBytes_decState (n : Half) (s : State) :
    (discardBytes n s).decState = s.decState := rfl
@[simp] theorem discardBytes_decCmd (n : Half) (s : State) :
    (discardBytes n s).decCmd = s.decCmd := rfl
@[simp] theorem discardBytes_decLen (n : Half) (s : State) :
    (discardBytes n s).decLen = s.decLen := rfl
@[simp] theorem discardBytes_decCount (n : Half) (s : State) :
    (discardBytes n s).decCount = s.decCount := rfl
@[simp] theorem discardBytes_decCrc (n : Half) (s : State) :
    (discardBytes n s).decCrc = s.decCrc := rfl
@[simp] theorem discardBytes_decCrcRx (n : Half) (s : State) :
    (discardBytes n s).decCrcRx = s.decCrcRx := rfl
@[simp] theorem discardBytes_decVerdict (n : Half) (s : State) :
    (discardBytes n s).decVerdict = s.decVerdict := rfl
@[simp] theorem discardBytes_rplClass (n : Half) (s : State) :
    (discardBytes n s).rplClass = s.rplClass := rfl
@[simp] theorem discardBytes_rplByte (n : Half) (s : State) :
    (discardBytes n s).rplByte = s.rplByte := rfl
@[simp] theorem discardBytes_evt (n : Half) (s : State) :
    (discardBytes n s).evt = setEvt s.evt .rxDiscard := rfl
@[simp] theorem discardBytes_irqEn (n : Half) (s : State) :
    (discardBytes n s).irqEn = s.irqEn := rfl
@[simp] theorem discardBytes_cntTx (n : Half) (s : State) :
    (discardBytes n s).cntTx = s.cntTx := rfl
@[simp] theorem discardBytes_cntRxOk (n : Half) (s : State) :
    (discardBytes n s).cntRxOk = s.cntRxOk := rfl
@[simp] theorem discardBytes_cntRxBad (n : Half) (s : State) :
    (discardBytes n s).cntRxBad = s.cntRxBad := rfl
@[simp] theorem discardBytes_cntDiscard (n : Half) (s : State) :
    (discardBytes n s).cntDiscard = s.cntDiscard + n := rfl
@[simp] theorem discardBytes_tx (n : Half) (s : State) :
    (discardBytes n s).tx = s.tx := rfl
@[simp] theorem discardBytes_rxo (n : Half) (s : State) :
    (discardBytes n s).rxo = s.rxo := rfl
@[simp] theorem discardBytes_params (n : Half) (s : State) :
    (discardBytes n s).params = s.params := rfl
@[simp] theorem discardBytes_port (n : Half) (s : State) :
    (discardBytes n s).port = s.port := rfl

/-! ### `preambleMatch` -/

@[simp] theorem preambleMatch_crcVal (s : State) :
    (preambleMatch s).crcVal = s.crcVal := rfl
@[simp] theorem preambleMatch_encState (s : State) :
    (preambleMatch s).encState = s.encState := rfl
@[simp] theorem preambleMatch_encCmd (s : State) :
    (preambleMatch s).encCmd = s.encCmd := rfl
@[simp] theorem preambleMatch_encLen (s : State) :
    (preambleMatch s).encLen = s.encLen := rfl
@[simp] theorem preambleMatch_encRemain (s : State) :
    (preambleMatch s).encRemain = s.encRemain := rfl
@[simp] theorem preambleMatch_encCrc (s : State) :
    (preambleMatch s).encCrc = s.encCrc := rfl
@[simp] theorem preambleMatch_decState (s : State) :
    (preambleMatch s).decState = .cmd := rfl
@[simp] theorem preambleMatch_decCmd (s : State) :
    (preambleMatch s).decCmd = 0x00#8 := rfl
@[simp] theorem preambleMatch_decLen (s : State) :
    (preambleMatch s).decLen = 0x0000#16 := rfl
@[simp] theorem preambleMatch_decCount (s : State) :
    (preambleMatch s).decCount = 0x0000#16 := rfl
@[simp] theorem preambleMatch_decCrc (s : State) :
    (preambleMatch s).decCrc = crcInitValue := rfl
@[simp] theorem preambleMatch_decCrcRx (s : State) :
    (preambleMatch s).decCrcRx = 0x0000#16 := rfl
@[simp] theorem preambleMatch_decVerdict (s : State) :
    (preambleMatch s).decVerdict = s.decVerdict := rfl
@[simp] theorem preambleMatch_rplClass (s : State) :
    (preambleMatch s).rplClass = s.rplClass := rfl
@[simp] theorem preambleMatch_rplByte (s : State) :
    (preambleMatch s).rplByte = s.rplByte := rfl
@[simp] theorem preambleMatch_evt (s : State) :
    (preambleMatch s).evt = s.evt := rfl
@[simp] theorem preambleMatch_irqEn (s : State) :
    (preambleMatch s).irqEn = s.irqEn := rfl
@[simp] theorem preambleMatch_cntTx (s : State) :
    (preambleMatch s).cntTx = s.cntTx := rfl
@[simp] theorem preambleMatch_cntRxOk (s : State) :
    (preambleMatch s).cntRxOk = s.cntRxOk := rfl
@[simp] theorem preambleMatch_cntRxBad (s : State) :
    (preambleMatch s).cntRxBad = s.cntRxBad := rfl
@[simp] theorem preambleMatch_cntDiscard (s : State) :
    (preambleMatch s).cntDiscard = s.cntDiscard := rfl
@[simp] theorem preambleMatch_tx (s : State) :
    (preambleMatch s).tx = s.tx := rfl
@[simp] theorem preambleMatch_rxo (s : State) :
    (preambleMatch s).rxo = s.rxo := rfl
@[simp] theorem preambleMatch_params (s : State) :
    (preambleMatch s).params = s.params := rfl
@[simp] theorem preambleMatch_port (s : State) :
    (preambleMatch s).port = s.port := rfl

/-! ### `frameEnd` -/

@[simp] theorem frameEnd_crcVal (v : Verdict) (s : State) :
    (frameEnd v s).crcVal = s.crcVal := rfl
@[simp] theorem frameEnd_encState (v : Verdict) (s : State) :
    (frameEnd v s).encState = s.encState := rfl
@[simp] theorem frameEnd_encCmd (v : Verdict) (s : State) :
    (frameEnd v s).encCmd = s.encCmd := rfl
@[simp] theorem frameEnd_encLen (v : Verdict) (s : State) :
    (frameEnd v s).encLen = s.encLen := rfl
@[simp] theorem frameEnd_encRemain (v : Verdict) (s : State) :
    (frameEnd v s).encRemain = s.encRemain := rfl
@[simp] theorem frameEnd_encCrc (v : Verdict) (s : State) :
    (frameEnd v s).encCrc = s.encCrc := rfl
@[simp] theorem frameEnd_decState (v : Verdict) (s : State) :
    (frameEnd v s).decState = .hunt0 := rfl
@[simp] theorem frameEnd_decCmd (v : Verdict) (s : State) :
    (frameEnd v s).decCmd = s.decCmd := rfl
@[simp] theorem frameEnd_decLen (v : Verdict) (s : State) :
    (frameEnd v s).decLen = s.decLen := rfl
@[simp] theorem frameEnd_decCount (v : Verdict) (s : State) :
    (frameEnd v s).decCount = s.decCount := rfl
@[simp] theorem frameEnd_decCrc (v : Verdict) (s : State) :
    (frameEnd v s).decCrc = s.decCrc := rfl
@[simp] theorem frameEnd_decCrcRx (v : Verdict) (s : State) :
    (frameEnd v s).decCrcRx = s.decCrcRx := rfl
@[simp] theorem frameEnd_decVerdict (v : Verdict) (s : State) :
    (frameEnd v s).decVerdict = v := rfl
@[simp] theorem frameEnd_rplClass (v : Verdict) (s : State) :
    (frameEnd v s).rplClass = s.rplClass := rfl
@[simp] theorem frameEnd_rplByte (v : Verdict) (s : State) :
    (frameEnd v s).rplByte = s.rplByte := rfl
@[simp] theorem frameEnd_evt (v : Verdict) (s : State) :
    (frameEnd v s).evt = setEvt s.evt (verdictEvt v) := rfl
@[simp] theorem frameEnd_irqEn (v : Verdict) (s : State) :
    (frameEnd v s).irqEn = s.irqEn := rfl
@[simp] theorem frameEnd_cntTx (v : Verdict) (s : State) :
    (frameEnd v s).cntTx = s.cntTx := rfl
@[simp] theorem frameEnd_cntRxOk (v : Verdict) (s : State) :
    (frameEnd v s).cntRxOk = if v = .ok then s.cntRxOk + 1 else s.cntRxOk := rfl
@[simp] theorem frameEnd_cntRxBad (v : Verdict) (s : State) :
    (frameEnd v s).cntRxBad = if v = .ok then s.cntRxBad else s.cntRxBad + 1 := rfl
@[simp] theorem frameEnd_cntDiscard (v : Verdict) (s : State) :
    (frameEnd v s).cntDiscard = s.cntDiscard := rfl
@[simp] theorem frameEnd_tx (v : Verdict) (s : State) :
    (frameEnd v s).tx = s.tx := rfl
@[simp] theorem frameEnd_rxo (v : Verdict) (s : State) :
    (frameEnd v s).rxo = s.rxo ++ [.frameEnd v s.decCmd s.decLen] := rfl
@[simp] theorem frameEnd_params (v : Verdict) (s : State) :
    (frameEnd v s).params = s.params := rfl
@[simp] theorem frameEnd_port (v : Verdict) (s : State) :
    (frameEnd v s).port = s.port := rfl

/-! ### `resetBlock` -/

@[simp] theorem resetBlock_crcVal (s : State) :
    (resetBlock s).crcVal = State.reset.crcVal := rfl
@[simp] theorem resetBlock_encState (s : State) :
    (resetBlock s).encState = State.reset.encState := rfl
@[simp] theorem resetBlock_encCmd (s : State) :
    (resetBlock s).encCmd = State.reset.encCmd := rfl
@[simp] theorem resetBlock_encLen (s : State) :
    (resetBlock s).encLen = State.reset.encLen := rfl
@[simp] theorem resetBlock_encRemain (s : State) :
    (resetBlock s).encRemain = State.reset.encRemain := rfl
@[simp] theorem resetBlock_encCrc (s : State) :
    (resetBlock s).encCrc = State.reset.encCrc := rfl
@[simp] theorem resetBlock_decState (s : State) :
    (resetBlock s).decState = State.reset.decState := rfl
@[simp] theorem resetBlock_decCmd (s : State) :
    (resetBlock s).decCmd = State.reset.decCmd := rfl
@[simp] theorem resetBlock_decLen (s : State) :
    (resetBlock s).decLen = State.reset.decLen := rfl
@[simp] theorem resetBlock_decCount (s : State) :
    (resetBlock s).decCount = State.reset.decCount := rfl
@[simp] theorem resetBlock_decCrc (s : State) :
    (resetBlock s).decCrc = State.reset.decCrc := rfl
@[simp] theorem resetBlock_decCrcRx (s : State) :
    (resetBlock s).decCrcRx = State.reset.decCrcRx := rfl
@[simp] theorem resetBlock_decVerdict (s : State) :
    (resetBlock s).decVerdict = State.reset.decVerdict := rfl
@[simp] theorem resetBlock_rplClass (s : State) :
    (resetBlock s).rplClass = State.reset.rplClass := rfl
@[simp] theorem resetBlock_rplByte (s : State) :
    (resetBlock s).rplByte = State.reset.rplByte := rfl
@[simp] theorem resetBlock_evt (s : State) :
    (resetBlock s).evt = State.reset.evt := rfl
@[simp] theorem resetBlock_irqEn (s : State) :
    (resetBlock s).irqEn = State.reset.irqEn := rfl
@[simp] theorem resetBlock_cntTx (s : State) :
    (resetBlock s).cntTx = State.reset.cntTx := rfl
@[simp] theorem resetBlock_cntRxOk (s : State) :
    (resetBlock s).cntRxOk = State.reset.cntRxOk := rfl
@[simp] theorem resetBlock_cntRxBad (s : State) :
    (resetBlock s).cntRxBad = State.reset.cntRxBad := rfl
@[simp] theorem resetBlock_cntDiscard (s : State) :
    (resetBlock s).cntDiscard = State.reset.cntDiscard := rfl
@[simp] theorem resetBlock_tx (s : State) :
    (resetBlock s).tx = s.tx := rfl
@[simp] theorem resetBlock_rxo (s : State) :
    (resetBlock s).rxo = s.rxo := rfl
@[simp] theorem resetBlock_params (s : State) :
    (resetBlock s).params = s.params := rfl
@[simp] theorem resetBlock_port (s : State) :
    (resetBlock s).port = s.port := rfl

/-! ### `emitHeader` -/

@[simp] theorem emitHeader_crcVal (l : Byte) (s : State) :
    (emitHeader l s).crcVal = s.crcVal := rfl
@[simp] theorem emitHeader_encState (l : Byte) (s : State) :
    (emitHeader l s).encState = s.encState := rfl
@[simp] theorem emitHeader_encCmd (l : Byte) (s : State) :
    (emitHeader l s).encCmd = s.encCmd := rfl
@[simp] theorem emitHeader_encLen (l : Byte) (s : State) :
    (emitHeader l s).encLen = setLow s.encLen l := rfl
@[simp] theorem emitHeader_encRemain (l : Byte) (s : State) :
    (emitHeader l s).encRemain = s.encRemain := rfl
@[simp] theorem emitHeader_encCrc (l : Byte) (s : State) :
    (emitHeader l s).encCrc = s.encCrc := rfl
@[simp] theorem emitHeader_decState (l : Byte) (s : State) :
    (emitHeader l s).decState = s.decState := rfl
@[simp] theorem emitHeader_decCmd (l : Byte) (s : State) :
    (emitHeader l s).decCmd = s.decCmd := rfl
@[simp] theorem emitHeader_decLen (l : Byte) (s : State) :
    (emitHeader l s).decLen = s.decLen := rfl
@[simp] theorem emitHeader_decCount (l : Byte) (s : State) :
    (emitHeader l s).decCount = s.decCount := rfl
@[simp] theorem emitHeader_decCrc (l : Byte) (s : State) :
    (emitHeader l s).decCrc = s.decCrc := rfl
@[simp] theorem emitHeader_decCrcRx (l : Byte) (s : State) :
    (emitHeader l s).decCrcRx = s.decCrcRx := rfl
@[simp] theorem emitHeader_decVerdict (l : Byte) (s : State) :
    (emitHeader l s).decVerdict = s.decVerdict := rfl
@[simp] theorem emitHeader_rplClass (l : Byte) (s : State) :
    (emitHeader l s).rplClass = s.rplClass := rfl
@[simp] theorem emitHeader_rplByte (l : Byte) (s : State) :
    (emitHeader l s).rplByte = s.rplByte := rfl
@[simp] theorem emitHeader_evt (l : Byte) (s : State) :
    (emitHeader l s).evt = s.evt := rfl
@[simp] theorem emitHeader_irqEn (l : Byte) (s : State) :
    (emitHeader l s).irqEn = s.irqEn := rfl
@[simp] theorem emitHeader_cntTx (l : Byte) (s : State) :
    (emitHeader l s).cntTx = s.cntTx := rfl
@[simp] theorem emitHeader_cntRxOk (l : Byte) (s : State) :
    (emitHeader l s).cntRxOk = s.cntRxOk := rfl
@[simp] theorem emitHeader_cntRxBad (l : Byte) (s : State) :
    (emitHeader l s).cntRxBad = s.cntRxBad := rfl
@[simp] theorem emitHeader_cntDiscard (l : Byte) (s : State) :
    (emitHeader l s).cntDiscard = s.cntDiscard := rfl
@[simp] theorem emitHeader_tx (l : Byte) (s : State) :
    (emitHeader l s).tx = s.tx ++ frameHeader s.encCmd (setLow s.encLen l) := rfl
@[simp] theorem emitHeader_rxo (l : Byte) (s : State) :
    (emitHeader l s).rxo = s.rxo := rfl
@[simp] theorem emitHeader_params (l : Byte) (s : State) :
    (emitHeader l s).params = s.params := rfl
@[simp] theorem emitHeader_port (l : Byte) (s : State) :
    (emitHeader l s).port = s.port := rfl

/-! ### `pushPayload` -/

@[simp] theorem pushPayload_crcVal (b : Byte) (s : State) :
    (pushPayload b s).crcVal = s.crcVal := rfl
@[simp] theorem pushPayload_encState (b : Byte) (s : State) :
    (pushPayload b s).encState = s.encState := rfl
@[simp] theorem pushPayload_encCmd (b : Byte) (s : State) :
    (pushPayload b s).encCmd = s.encCmd := rfl
@[simp] theorem pushPayload_encLen (b : Byte) (s : State) :
    (pushPayload b s).encLen = s.encLen := rfl
@[simp] theorem pushPayload_encRemain (b : Byte) (s : State) :
    (pushPayload b s).encRemain = s.encRemain - 1 := rfl
@[simp] theorem pushPayload_encCrc (b : Byte) (s : State) :
    (pushPayload b s).encCrc = crc16Step s.encCrc b := rfl
@[simp] theorem pushPayload_decState (b : Byte) (s : State) :
    (pushPayload b s).decState = s.decState := rfl
@[simp] theorem pushPayload_decCmd (b : Byte) (s : State) :
    (pushPayload b s).decCmd = s.decCmd := rfl
@[simp] theorem pushPayload_decLen (b : Byte) (s : State) :
    (pushPayload b s).decLen = s.decLen := rfl
@[simp] theorem pushPayload_decCount (b : Byte) (s : State) :
    (pushPayload b s).decCount = s.decCount := rfl
@[simp] theorem pushPayload_decCrc (b : Byte) (s : State) :
    (pushPayload b s).decCrc = s.decCrc := rfl
@[simp] theorem pushPayload_decCrcRx (b : Byte) (s : State) :
    (pushPayload b s).decCrcRx = s.decCrcRx := rfl
@[simp] theorem pushPayload_decVerdict (b : Byte) (s : State) :
    (pushPayload b s).decVerdict = s.decVerdict := rfl
@[simp] theorem pushPayload_rplClass (b : Byte) (s : State) :
    (pushPayload b s).rplClass = s.rplClass := rfl
@[simp] theorem pushPayload_rplByte (b : Byte) (s : State) :
    (pushPayload b s).rplByte = s.rplByte := rfl
@[simp] theorem pushPayload_evt (b : Byte) (s : State) :
    (pushPayload b s).evt = s.evt := rfl
@[simp] theorem pushPayload_irqEn (b : Byte) (s : State) :
    (pushPayload b s).irqEn = s.irqEn := rfl
@[simp] theorem pushPayload_cntTx (b : Byte) (s : State) :
    (pushPayload b s).cntTx = s.cntTx := rfl
@[simp] theorem pushPayload_cntRxOk (b : Byte) (s : State) :
    (pushPayload b s).cntRxOk = s.cntRxOk := rfl
@[simp] theorem pushPayload_cntRxBad (b : Byte) (s : State) :
    (pushPayload b s).cntRxBad = s.cntRxBad := rfl
@[simp] theorem pushPayload_cntDiscard (b : Byte) (s : State) :
    (pushPayload b s).cntDiscard = s.cntDiscard := rfl
@[simp] theorem pushPayload_tx (b : Byte) (s : State) :
    (pushPayload b s).tx = s.tx ++ [b] := rfl
@[simp] theorem pushPayload_rxo (b : Byte) (s : State) :
    (pushPayload b s).rxo = s.rxo := rfl
@[simp] theorem pushPayload_params (b : Byte) (s : State) :
    (pushPayload b s).params = s.params := rfl
@[simp] theorem pushPayload_port (b : Byte) (s : State) :
    (pushPayload b s).port = s.port := rfl

end Sys2Proof.Machine
end

