-- ==== Sys2Proof/Laws/Ops.lean ====
section
/-! SUPPORT. For each shared operation, one lemma that says once everything it can do. -/

namespace Sys2Proof.Machine

theorem emitTx_spec (bs : List Byte) (s : State) : emitTx bs s = { s with tx := s.tx ++ bs } := rfl

theorem emitRx_spec (e : RxEvent) (s : State) : emitRx e s = { s with rxo := s.rxo ++ [e] } := rfl

theorem raise_spec (e : Evt) (s : State) : raise e s = { s with evt := s.evt ||| evtMask e } := rfl

/-- The sequence check either runs the operation in the state that accepts it or only raises `SEQ_ERR`. -/
theorem whenEnc_cases (want : EncState) (body : State → State) (s : State) :
    (s.encState = want ∧ whenEnc want body s = body s) ∨
    (s.encState ≠ want ∧ whenEnc want body s = { s with evt := s.evt ||| evtMask .seqErr }) := by
  by_cases h : s.encState = want
  · exact .inl ⟨h, if_pos h⟩
  · exact .inr ⟨h, if_neg h⟩

theorem finishTx_spec (s : State) :
    finishTx s = { s with
      tx := s.tx ++ [hiByte s.encCrc, loByte s.encCrc]
      cntTx := s.cntTx + 1
      evt := s.evt ||| evtMask .txDone
      encState := .idle } := rfl

theorem discardBytes_spec (n : Half) (s : State) :
    discardBytes n s = { s with
      cntDiscard := s.cntDiscard + n
      evt := s.evt ||| evtMask .rxDiscard } := rfl

/-- A frame ends accepted, and only the good counter moves, or it ends with another verdict, and only the
bad counter moves. -/
theorem frameEnd_cases (v : Verdict) (s : State) :
    (v = .ok ∧ frameEnd v s = { s with
      decVerdict := .ok
      rxo := s.rxo ++ [.frameEnd .ok s.decCmd s.decLen]
      cntRxOk := s.cntRxOk + 1
      evt := s.evt ||| evtMask .rxOk
      decState := .hunt0 }) ∨
    (v ≠ .ok ∧ frameEnd v s = { s with
      decVerdict := v
      rxo := s.rxo ++ [.frameEnd v s.decCmd s.decLen]
      cntRxBad := s.cntRxBad + 1
      evt := s.evt ||| evtMask .rxBad
      decState := .hunt0 }) := by
  cases v
  case ok => exact .inl ⟨rfl, rfl⟩
  all_goals exact .inr ⟨by decide, rfl⟩

/-- The verdict on a complete frame is one of three, each with its condition. -/
theorem frameVerdict_cases (crcRx crc : Half) (cmd : Byte) :
    (crcRx ≠ crc ∧ frameVerdict crcRx crc cmd = .crcErr) ∨
    (crcRx = crc ∧ isCommand cmd = true ∧ frameVerdict crcRx crc cmd = .ok) ∨
    (crcRx = crc ∧ isCommand cmd = false ∧ frameVerdict crcRx crc cmd = .cmdErr) := by
  by_cases h : crcRx = crc <;> cases hc : isCommand cmd <;> simp [frameVerdict, h, hc]

/-- The length check is one of three cases (R136). -/
theorem rxLenLo_cases (b : Byte) (s : State) :
    (s.params.rxMaxLen < setLow s.decLen b ∧
      rxLenLo b s = frameEnd .lenErr { s with decLen := setLow s.decLen b }) ∨
    (¬s.params.rxMaxLen < setLow s.decLen b ∧ setLow s.decLen b = 0x0000#16 ∧
      rxLenLo b s = { s with decLen := setLow s.decLen b, decState := .crcHi }) ∨
    (¬s.params.rxMaxLen < setLow s.decLen b ∧ setLow s.decLen b ≠ 0x0000#16 ∧
      rxLenLo b s = { s with decLen := setLow s.decLen b, decState := .payload }) := by
  by_cases h : s.params.rxMaxLen < setLow s.decLen b
  · exact .inl ⟨h, if_pos h⟩
  · by_cases h0 : setLow s.decLen b = 0x0000#16
    · exact .inr (.inl ⟨h, h0, by simp only [rxLenLo, if_neg h, if_pos h0]⟩)
    · exact .inr (.inr ⟨h, h0, by simp only [rxLenLo, if_neg h, if_neg h0]⟩)

theorem resetBlock_spec (s : State) :
    resetBlock s =
      { State.reset with tx := s.tx, rxo := s.rxo, params := s.params, port := s.port } := rfl

theorem isCommand_iff (c : Byte) :
    isCommand c = true ↔ c = 0x01#8 ∨ c = 0x02#8 ∨ c = 0x03#8 ∨ c = 0x04#8 := by
  simp [isCommand, cmdStart, cmdData, cmdEnd, cmdAbort, or_assoc]

/-- The three cases of a reply select (R116). -/
theorem replyByte_cases (r : Byte) :
    (r = 0x00#8 ∧ replyByte r = some 0x06#8) ∨
    (r = 0x01#8 ∧ replyByte r = some 0x15#8) ∨
    (r ≠ 0x00#8 ∧ r ≠ 0x01#8 ∧ replyByte r = none) := by
  by_cases h0 : r = 0x00#8
  · exact .inl ⟨h0, if_pos h0⟩
  · by_cases h1 : r = 0x01#8
    · exact .inr (.inl ⟨h1, by rw [replyByte, if_neg h0, if_pos h1]; rfl⟩)
    · exact .inr (.inr ⟨h0, h1, by rw [replyByte, if_neg h0, if_neg h1]⟩)

end Sys2Proof.Machine
end

