-- ==== Sys2Proof/Laws/PerInstr.lean ====
section
/-! SUPPORT. The per-instruction family: each operation's encoding lies in its row of the opcode table. -/

namespace Sys2Proof.Laws.EncodedRow

/-- The `match` column of the opcode table; every row's mask is 0xFF00 (30_encoding.md R73). -/
def rowMatch (i : Instr) : OpWord :=
  match i with
  | .nop => 0x0000#16
  | .crcInit => 0x0100#16
  | .crcFeed _ => 0x0200#16
  | .encBegin _ => 0x1000#16
  | .encLenHi _ => 0x1100#16
  | .encLenLo _ => 0x1200#16
  | .encData _ => 0x1300#16
  | .encAbort => 0x1400#16
  | .encReply _ => 0x1500#16
  | .decRx _ => 0x2000#16
  | .decAbort => 0x2100#16
  | .rplRx _ => 0x2200#16
  | .evtAck _ => 0x3000#16
  | .irqSet _ => 0x3100#16
  | .cntClear => 0x3200#16
  | .softReset => 0x3F00#16

/-- The operation is well-formed and its word, under the table's mask, is its row's match. -/
def Statement (i : Instr) : Prop := i.wellFormed = true ∧ encode i &&& 0xFF00#16 = rowMatch i

/-- Masking an assembled word keeps its opcode byte and clears its operand byte. -/
theorem word_and_mask (op b : Byte) : ((op ++ b : BitVec (8 + 8)) &&& 0xFF00#16) = op ++ 0x00#8 := by
  have hm : (0xFF00#16 : BitVec (8 + 8)) = 0xFF#8 ++ 0x00#8 := rfl
  rw [hm, BitVec.and_append]
  congr 1
  · exact BitVec.and_allOnes
  · exact BitVec.and_zero

theorem nop : Statement .nop := ⟨rfl, rfl⟩
theorem crcInit : Statement .crcInit := ⟨rfl, rfl⟩
theorem crcFeed (b : Byte) : Statement (.crcFeed b) := ⟨rfl, word_and_mask 0x02#8 b⟩
theorem encBegin (c : Byte) : Statement (.encBegin c) := ⟨rfl, word_and_mask 0x10#8 c⟩
theorem encLenHi (h : Byte) : Statement (.encLenHi h) := ⟨rfl, word_and_mask 0x11#8 h⟩
theorem encLenLo (l : Byte) : Statement (.encLenLo l) := ⟨rfl, word_and_mask 0x12#8 l⟩
theorem encData (b : Byte) : Statement (.encData b) := ⟨rfl, word_and_mask 0x13#8 b⟩
theorem encAbort : Statement .encAbort := ⟨rfl, rfl⟩
theorem encReply (r : Byte) : Statement (.encReply r) := ⟨rfl, word_and_mask 0x15#8 r⟩
theorem decRx (b : Byte) : Statement (.decRx b) := ⟨rfl, word_and_mask 0x20#8 b⟩
theorem decAbort : Statement .decAbort := ⟨rfl, rfl⟩
theorem rplRx (b : Byte) : Statement (.rplRx b) := ⟨rfl, word_and_mask 0x22#8 b⟩
theorem evtAck (m : Byte) : Statement (.evtAck m) := ⟨rfl, word_and_mask 0x30#8 m⟩
theorem irqSet (m : Byte) : Statement (.irqSet m) := ⟨rfl, word_and_mask 0x31#8 m⟩
theorem cntClear : Statement .cntClear := ⟨rfl, rfl⟩
theorem softReset : Statement .softReset := ⟨rfl, rfl⟩

end Sys2Proof.Laws.EncodedRow
end

