-- ==== Sys2Proof/Laws/Step.lean ====
section
/-! SUPPORT. What a step can do, said once, and how a sequence of inputs unfolds. -/

namespace Sys2Proof.Machine

/-- Everything a step can be: nothing has arrived, or one input is taken and carried out. -/
theorem step_cases (s : State) :
    (s.port = [] ∧ step s = .next s) ∨
    (∃ rest, s.port = .hwReset :: rest ∧ step s = .next (resetBlock { s with port := rest })) ∨
    (∃ w i rest, s.port = .word w :: rest ∧ decode w = .op i ∧ step s = exec i { s with port := rest }) ∨
    (∃ w op rest, s.port = .word w :: rest ∧ decode w = .illegal op ∧
      step s = .next (raise .illegalOp { s with port := rest })) := by
  unfold step stepBlock takeInput
  cases hp : s.port with
  | nil => exact .inl ⟨rfl, rfl⟩
  | cons x rest =>
    cases x with
    | hwReset => exact .inr (.inl ⟨rest, rfl, rfl⟩)
    | word w =>
      cases hd : decode w with
      | op i => exact .inr (.inr (.inl ⟨w, i, rest, rfl, hd, by simp [execInput, execDecoded, hd]⟩))
      | illegal op =>
        exact .inr (.inr (.inr ⟨w, op, rest, rfl, hd,
          by simp [execInput, execDecoded, hd, execIllegal]⟩))

/-- No operation looks at the port or changes it. -/
theorem exec_port_comm (i : Instr) (p : List PortInput) (s t : State) (h : exec i s = .next t) :
    exec i { s with port := p } = .next { t with port := p } := by
  have key : ∀ s : State, ∃ t, exec i s = .next t ∧ exec i { s with port := p } = .next { t with port := p } := by
    clear h s t
    rintro ⟨_, encState, _, _, _, _, decState, _, _, _, _, _, _, _, _, _, _, _, _, _, _, _, _, _, _⟩
    cases i <;> refine ⟨_, rfl, ?_⟩ <;> apply congrArg Host.Outcome.next
    case decRx b =>
      cases decState <;> dsimp only [rxHunt0, rxHunt1, rxLenLo] <;> (repeat' split) <;> rfl
    case decAbort => cases decState <;> rfl
    case encBegin c => cases encState <;> dsimp only [whenEnc] <;> (repeat' split) <;> rfl
    case encLenLo l => cases encState <;> dsimp only [whenEnc] <;> (repeat' split) <;> rfl
    case encData b => cases encState <;> dsimp only [whenEnc] <;> (repeat' split) <;> rfl
    case encReply r => cases encState <;> dsimp only [whenEnc] <;> (repeat' split) <;> rfl
    case encAbort => cases encState <;> rfl
    case encLenHi h => cases encState <;> rfl
    all_goals rfl
  obtain ⟨t', h1, h2⟩ := key s
  rw [h1] at h
  cases h
  exact h2

/-- No input looks at the port or changes it. -/
theorem execInput_port_comm (x : PortInput) (p : List PortInput) (s t : State)
    (h : execInput x s = .next t) : execInput x { s with port := p } = .next { t with port := p } := by
  cases x with
  | hwReset => cases h; rfl
  | word w =>
    simp only [execInput] at h ⊢
    cases hd : decode w with
    | op i => rw [hd] at h; exact exec_port_comm i p s t h
    | illegal op => rw [hd] at h; cases h; rfl

/-- One step of a run. -/
theorem run_succ (M : Host.Core) (k : Nat) (s t : M.State) (h : M.step s = .next t) :
    M.run (k + 1) s = M.run k t := by
  simp only [Host.Core.run, h]

theorem feed_nil (s : State) : feed [] s = .next s := rfl

/-- Feeding inputs is carrying out the first, then feeding the rest. -/
theorem feed_cons (x : PortInput) (xs : List PortInput) (s t : State) (h : execInput x s = .next t) :
    feed (x :: xs) s = feed xs t := by
  have hp : t.port = s.port := by
    have h' := execInput_port_comm x s.port s t h
    rw [show ({ s with port := s.port } : State) = s from rfl, h] at h'
    have h'' := congrArg State.port (Host.Outcome.next.inj h')
    exact h''
  have hs : Sys2Proof.core.step { s with port := (x :: xs) ++ s.port } = .next { t with port := xs ++ s.port } :=
    execInput_port_comm x (xs ++ s.port) s t h
  unfold feed
  rw [List.length_cons, hp]
  exact run_succ Sys2Proof.core xs.length _ _ hs

end Sys2Proof.Machine
end

