-- ==== Sys2Proof/Tests/Slice0.lean ====
section
/-! SUPPORT. Tests on values the spec gives, and, for each statement with hypotheses, a state and operands
that meet them. -/

namespace Sys2Proof.Tests

open Sys2Proof Sys2Proof.Machine

/-! ### Well-formedness: one ill-formed term for each check, and the bound itself (R80) -/

theorem test_wf_encLen_refuses : (Pseudo.encLen 65536).wellFormed = false := by decide
theorem test_wf_encLen_bound : (Pseudo.encLen 65535).wellFormed = true := by decide
theorem test_wf_encFrame_refuses : (Pseudo.encFrame 1 (List.replicate 65536 0)).wellFormed = false := by
  simp only [Pseudo.wellFormed, List.length_replicate]; decide
theorem test_wf_encFrame_bound : (Pseudo.encFrame 1 (List.replicate 65535 0)).wellFormed = true := by
  simp only [Pseudo.wellFormed, List.length_replicate]; decide
theorem test_wf_asm_refuses : (AsmOp.pseudo (.encLen 65536)).wellFormed = false := by decide

/-! ### Decoding: a word written out from the encoding of each operation (R70, R73) -/

theorem test_decode_nop : decode 0b0000000011111111#16 = .op .nop := by decide
theorem test_decode_crcInit : decode 0b0000000100000000#16 = .op .crcInit := by decide
theorem test_decode_crcFeed : decode 0b0000001000110001#16 = .op (.crcFeed 0x31#8) := by decide
theorem test_decode_encBegin : decode 0b0001000000000011#16 = .op (.encBegin 0x03#8) := by decide
theorem test_decode_encLenHi : decode 0b0001000100000010#16 = .op (.encLenHi 0x02#8) := by decide
theorem test_decode_encLenLo : decode 0b0001001000000100#16 = .op (.encLenLo 0x04#8) := by decide
theorem test_decode_encData : decode 0b0001001110101011#16 = .op (.encData 0xAB#8) := by decide
theorem test_decode_encAbort : decode 0b0001010000000000#16 = .op .encAbort := by decide
theorem test_decode_encReply : decode 0b0001010100000001#16 = .op (.encReply 0x01#8) := by decide
theorem test_decode_decRx : decode 0b0010000010101010#16 = .op (.decRx 0xAA#8) := by decide
theorem test_decode_decAbort : decode 0b0010000100000000#16 = .op .decAbort := by decide
theorem test_decode_rplRx : decode 0b0010001001000001#16 = .op (.rplRx 0x41#8) := by decide
theorem test_decode_evtAck : decode 0b0011000000000100#16 = .op (.evtAck 0x04#8) := by decide
theorem test_decode_irqSet : decode 0b0011000100010011#16 = .op (.irqSet 0x13#8) := by decide
theorem test_decode_cntClear : decode 0b0011001000000000#16 = .op .cntClear := by decide
theorem test_decode_softReset : decode 0b0011111110101011#16 = .op .softReset := by decide
theorem test_decode_illegal : decode 0b0011111000000000#16 = .illegal 0x3E#8 := by decide
theorem test_decodeTableWord : decodeTableWord 16 0x1305 = some (.encData 0x05#8) := by decide
theorem test_decodeTableWord_illegal : decodeTableWord 16 0x4000 = none := by decide

/-! ### One step each, on values the spec gives -/

/-- A field of the next state; none for a fault or a refusal. -/
def after {α : Type} (o : Host.Outcome State Fault Refusal) (f : State → α) : Option α :=
  match o with
  | .next t => some (f t)
  | .fault _ => none
  | .refused _ => none

/-- Vector T1. -/
theorem test_nop : after (step (State.reset.withFetchWord 16 0x00FF)) id = some State.reset := by decide
/-- R102's example. -/
theorem test_crcInit : after (exec .crcInit { State.reset with crcVal := 0x29B1#16 }) State.crcVal =
    some 0xFFFF#16 := by decide
/-- R103's example. -/
theorem test_crcFeed : after (step (State.reset.withFetchWord 16 0x0231)) State.crcVal = some 0xC782#16 := by
  decide
/-- Section 2.1: `crc16_step(0x1234, 0x56) = 0x3C40`. -/
theorem test_crcFeed_mid : after (exec (.crcFeed 0x56#8) { State.reset with crcVal := 0x1234#16 }) State.crcVal =
    some 0x3C40#16 := by decide
/-- R111's example. -/
theorem test_encBegin : after (exec (.encBegin 0x03#8) State.reset) (fun t => (t.encCmd, t.encState, t.tx)) =
    some (0x03#8, .lenHi, []) := by decide
/-- Vector E6's second word: a bad command in a busy encoder. -/
theorem test_encBegin_busy : after (exec (.encBegin 0x07#8) { State.reset with encState := .lenHi })
    (fun t => (t.evt, t.encState)) = some (0x10#8, .lenHi) := by decide
/-- R112's example. -/
theorem test_encLenHi : after (exec (.encLenHi 0x02#8) { State.reset with encState := .lenHi })
    (fun t => (t.encLen, t.encState)) = some (0x0200#16, .lenLo) := by decide
/-- Vector E4. -/
theorem test_encLenHi_idle : after (exec (.encLenHi 0x00#8) State.reset) State.evt = some 0x10#8 := by decide
/-- Vector E1's last word: the END frame. -/
theorem test_encLenLo_zero : after (exec (.encLenLo 0x00#8)
      { State.reset with encState := .lenLo, encCmd := 0x03#8 }) (fun t => (t.tx, t.evt, t.cntTx, t.encState)) =
    some ([0x55, 0xAA, 0x03, 0x00, 0x00, 0xFF, 0xFF], 0x04#8, 1#16, .idle) := by decide
/-- Vector E14's last word: the maximum length. -/
theorem test_encLenLo_max : after (exec (.encLenLo 0xFF#8)
      { State.reset with encState := .lenLo, encCmd := 0x02#8, encLen := 0xFF00#16 })
      (fun t => (t.tx, t.encRemain, readReg 0x01#5 t)) =
    some ([0x55, 0xAA, 0x02, 0xFF, 0xFF], 0xFFFF#16, 0x0203#16) := by decide
/-- R114's example: the last payload byte. -/
theorem test_encData_last : after (exec (.encData 0x00#8)
      { State.reset with encState := .payload, encLen := 1, encRemain := 1 }) (fun t => (t.tx, t.encState)) =
    some ([0x00, 0xE1, 0xF0], .idle) := by decide
/-- Vector E8's fourth word: not the last payload byte. -/
theorem test_encData_more : after (exec (.encData 0x11#8)
      { State.reset with encState := .payload, encLen := 3, encRemain := 3 })
      (fun t => (t.tx, t.encRemain, t.encCrc)) = some ([0x11], 2#16, 0xE3E0#16) := by decide
/-- R115's example. -/
theorem test_encAbort : after (exec .encAbort { State.reset with encState := .payload, encLen := 3, encRemain := 3 })
    (fun t => (t.encState, t.encRemain, t.encLen, t.tx)) = some (.idle, 0#16, 3#16, []) := by decide
/-- R116's example. -/
theorem test_encReply_nak : after (exec (.encReply 0x01#8) State.reset) (fun t => (t.tx, t.cntTx)) =
    some ([0x15], 0#16) := by decide
/-- Vector E9's third word. -/
theorem test_encReply_bad : after (exec (.encReply 0x02#8) State.reset) (fun t => (t.tx, t.evt)) =
    some ([], 0x20#8) := by decide
/-- Vector V9's last word: the length is over the limit. -/
theorem test_decRx_lenErr : after (exec (.decRx 0x11#8)
      { State.reset with decState := .lenLo, decCmd := 0x02#8, params := { rxMaxLen := 16 } })
      (fun t => (t.rxo, t.cntRxBad, t.evt, readReg 0x05#5 t)) =
    some ([.frameEnd .lenErr 0x02#8 0x0011#16], 1#16, 0x02#8, 0x0240#16) := by decide
/-- Vector V8's last word: the checksum is checked before the command. -/
theorem test_decRx_crcErr : after (exec (.decRx 0x34#8)
      { State.reset with decState := .crcLo, decCmd := 0x05#8, decCrcRx := 0x1200#16 })
      (fun t => (t.rxo, t.decCrcRx, t.decState)) =
    some ([.frameEnd .crcErr 0x05#8 0x0000#16], 0x1234#16, .hunt0) := by decide
/-- R141's example. -/
theorem test_decAbort : after (exec .decAbort
      { State.reset with decState := .payload, decCmd := 0x02#8, decLen := 0x0200#16 })
      (fun t => (t.rxo, t.cntRxBad, t.evt, t.decState)) =
    some ([.frameEnd .aborted 0x02#8 0x0200#16], 1#16, 0x02#8, .hunt0) := by decide
/-- Vector V11's second word. -/
theorem test_decAbort_hunt1 : after (exec .decAbort { State.reset with decState := .hunt1 })
    (fun t => (t.cntDiscard, t.evt, t.rxo)) = some (1#16, 0x08#8, []) := by decide
/-- Vector Q1. -/
theorem test_rplRx_ack : after (exec (.rplRx 0x06#8) State.reset) (fun t => (readReg 0x0A#5 t, t.evt)) =
    some (0x0601#16, 0x80#8) := by decide
/-- R150's second example. -/
theorem test_rplRx_garbage : after (exec (.rplRx 0x41#8) State.reset) (fun t => (t.rplClass, t.rplByte)) =
    some (.garbage, 0x41#8) := by decide
/-- R162's example. -/
theorem test_evtAck : after (exec (.evtAck 0x01#8) { State.reset with evt := 0x13#8 }) State.evt =
    some 0x12#8 := by decide
/-- R161's example. -/
theorem test_irqSet : after (exec (.irqSet 0x04#8) { State.reset with evt := 0x04#8 })
    (fun t => (t.irqEn, irq t, readReg 0x0D#5 t)) = some (0x04#8, true, 0x0001#16) := by decide
/-- R163's example. -/
theorem test_cntClear : after (exec .cntClear { State.reset with cntRxOk := 5, evt := 0x01#8 })
    (fun t => (t.cntRxOk, t.evt)) = some (0#16, 0x01#8) := by decide
/-- Vector T6: the stream stays on the link. -/
theorem test_softReset : after (exec .softReset { State.reset with
      crcVal := 0xC782#16, encState := .payload, encLen := 1, encRemain := 1, decState := .hunt1, tx := [0x55] }) id =
    some { State.reset with tx := [0x55] } := by decide
/-- R166's example. -/
theorem test_illegal : after (step (State.reset.withFetchWord 16 0x4000)) id =
    some { State.reset with evt := 0x40#8 } := by decide
/-- R200: the hardware reset input. -/
theorem test_hwReset : after (step { State.reset with port := [.hwReset], irqEn := 0x13#8 }) id =
    some State.reset := by decide
/-- R13: what a client observes of the reset state. -/
theorem test_observe_reset : (observe State.reset).irq = false ∧ (observe State.reset).regs[0x12] = 0xFFFF#16 := by
  decide
/-- Vector T8: a reserved address. -/
theorem test_read_reserved : readReg 0x13#5 { State.reset with crcVal := 0x1234#16 } = 0x0000#16 := by decide

/-! ### The assembler (R79, R80): lines of the spec's programs -/

/-- P1's third line, in lower case and with a comment. -/
theorem test_asm_core : assembleLine ['e','n','c','.','l','e','n','h','i',' ','0','x','0','0',' ',';',' ','1'] =
    some [0x1100#16] := by decide
/-- P4's pseudo-operation, cut to two characters. -/
theorem test_asm_list : assembleLine
      ['C','R','C','.','B','L','O','C','K',' ','[','\'','1','\'',',','\'','2','\'',']'] =
    some [0x0100#16, 0x0231#16, 0x0232#16] := by decide
/-- An operand above 255 is an assembly error. -/
theorem test_asm_error : assembleLine ['C','R','C','.','F','E','E','D',' ','2','5','6'] = none := by decide

/-! ### States and operands that meet the hypotheses of each statement -/

theorem witness_DecodeFollowsOpcodeTable :
    ∀ op ∈ [0x03#8, 0x40#8, 0xFF#8], op ∉ [0x00#8, 0x01#8, 0x02#8, 0x10#8, 0x11#8, 0x12#8, 0x13#8, 0x14#8,
      0x15#8, 0x20#8, 0x21#8, 0x22#8, 0x30#8, 0x31#8, 0x32#8, 0x3F#8] := by decide
theorem witness_IllegalWordsOnlyRaiseIllegalOp :
    decode (0x03#8 ++ 0xFF#8) = .illegal 0x03#8 ∧ decode (0xFF#8 ++ 0x00#8) = .illegal 0xFF#8 := by
  decide
theorem witness_DecodeEncodeRoundTrip :
    (Instr.crcFeed 0xFF#8).wellFormed = true ∧ decode 0x02FF#16 = .op (.crcFeed 0xFF#8) ∧
    (Instr.crcFeed 0xFF#8).operand ≠ none ∧ decode 0x3FAB#16 = .op .softReset := by decide
theorem witness_PseudoOperationsExpand :
    65535 ≤ 65535 ∧ 65535 < 65536 ∧ (List.replicate 65535 0x00#8).length ≤ 65535 ∧
    65535 < (List.replicate 65536 0x00#8).length := by
  simp only [List.length_replicate]; decide
theorem witness_StepRunsDecodedOperation :
    ({ State.reset with port := [.word 0x0231#16, .hwReset] } : State).port = .word 0x0231#16 :: [.hwReset] ∧
    decode 0x0231#16 = .op (.crcFeed 0x31#8) ∧ (Instr.crcFeed 0x31#8).wellFormed = true ∧
    ({ State.reset with port := [.word 0xFF00#16] } : State).port = .word 0xFF00#16 :: [] ∧
    decode 0xFF00#16 = .illegal 0xFF#8 ∧
    ({ State.reset with port := [.hwReset] } : State).port = .hwReset :: [] := by decide
theorem witness_StepHoldsWithoutInput : State.reset.port = [] := rfl
theorem witness_InputsAreTakenInOrder :
    feed [.word 0x0231#16] State.reset = .next { State.reset with crcVal := 0xC782#16 } := rfl
theorem witness_ResetStateValues :
    exec .softReset { State.reset with evt := 0xFF#8 } = .next State.reset ∧
    execInput .hwReset { State.reset with evt := 0xFF#8 } = .next State.reset := ⟨rfl, rfl⟩
theorem witness_SoftResetResult :
    exec .softReset { State.reset with evt := 0x01#8, irqEn := 0x01#8 } = .next State.reset := rfl
theorem witness_CrcInitResult :
    exec .crcInit { State.reset with crcVal := 0x0000#16 } = .next State.reset := rfl
/-- CRC.INIT and one CRC.FEED, with an encoder operation and an illegal word between. -/
theorem witness_CrcBlockComputesCrc16 :
    opsOf .crc [.word 0x0100#16, .word 0x1003#16, .word 0x4000#16, .word 0x0231#16] =
      .crcInit :: [0x31#8].map .crcFeed ∧
    noReset [.word 0x0100#16, .word 0x1003#16, .word 0x4000#16, .word 0x0231#16] := by decide
theorem witness_CrcDetectsSingleBitFlip : 0 < 8 ∧ 7 < 8 := by decide
theorem witness_CrcValIsNeverLoaded :
    execInput (.word (0x02#8 ++ 0x31#8)) State.reset = .next { State.reset with crcVal := 0xC782#16 } := rfl
theorem witness_EncBeginResult :
    State.reset.encState = .idle ∧
    (∀ c ∈ [0x01#8, 0x04#8], c = 0x01#8 ∨ c = 0x02#8 ∨ c = 0x03#8 ∨ c = 0x04#8) ∧
    (∀ c ∈ [0x00#8, 0x05#8], ¬(c = 0x01#8 ∨ c = 0x02#8 ∨ c = 0x03#8 ∨ c = 0x04#8)) ∧
    ({ State.reset with encState := .lenHi } : State).encState ≠ .idle := by decide
theorem witness_EncLenHiResult :
    ({ State.reset with encState := .lenHi } : State).encState = .lenHi ∧ State.reset.encState ≠ .lenHi := by decide
theorem witness_EncLenLoResult :
    ({ State.reset with encState := .lenLo } : State).encState = .lenLo ∧
    (0x0001#16 = hiByte State.reset.encLen ++ 0x01#8 ∧ 0x0001#16 ≠ 0x0000#16) ∧
    (0x0000#16 = hiByte State.reset.encLen ++ 0x00#8 ∧ 0x0000#16 = 0x0000#16) ∧
    State.reset.encState ≠ .lenLo := by decide
/-- The encoder in `PAYLOAD` with the header of a two-byte frame sent and `r` bytes remaining. -/
def inPayload (r : Half) : State :=
  { State.reset with
    encState := .payload, encCmd := 0x02#8, encLen := 2, encRemain := r, tx := frameHeader 0x02#8 2 }
theorem witness_EncDataResult :
    ((inPayload 2).encState = .payload ∧ (inPayload 2).encRemain ≠ 0x0001#16) ∧
    ((inPayload 1).encState = .payload ∧ (inPayload 1).encRemain = 0x0001#16) ∧
    State.reset.encState ≠ .payload := by decide
/-- The encoder's invariant is met in `PAYLOAD` too. -/
theorem witness_EncInv_payload : EncInv (inPayload 2) ∧ (inPayload 2).encState = .payload :=
  ⟨{ remain_in_payload := fun _ => by decide
     remain_elsewhere := fun h => absurd rfl h
     command := fun _ => by decide
     crc_before_payload := fun h => by rcases h with h | h <;> cases h
     stream := fun _ => ⟨[], [], by decide, by decide, by decide⟩ }, rfl⟩
theorem witness_EncAbortResult :
    State.reset.encState = .idle ∧ (inPayload 2).encState ≠ .idle := by decide
theorem witness_EncReplyResult :
    State.reset.encState = .idle ∧ (∀ r ∈ [0x02#8, 0xFF#8], r ≠ 0x00#8 ∧ r ≠ 0x01#8) ∧
    (inPayload 2).encState ≠ .idle := by decide
/-- The END frame with no payload, and a one-byte frame with other units' operations between. -/
theorem witness_EncoderBuildsDocFrame :
    (opsOf .enc [.word 0x1003#16, .word 0x1100#16, .word 0x1200#16] =
      [.encBegin 0x03#8, .encLenHi (hiByte (BitVec.ofNat 16 0)), .encLenLo (loByte (BitVec.ofNat 16 0))] ++
        ([] : List Byte).map .encData ∧
      noReset [.word 0x1003#16, .word 0x1100#16, .word 0x1200#16] ∧
      noCntClear [.word 0x1003#16, .word 0x1100#16, .word 0x1200#16] ∧
      noEvtAck [.word 0x1003#16, .word 0x1100#16, .word 0x1200#16]) ∧
    (opsOf .enc [.word 0x1002#16, .word 0x2055#16, .word 0x1100#16, .word 0x1201#16, .word 0x4000#16,
        .word 0x1300#16] =
      [.encBegin 0x02#8, .encLenHi (hiByte (BitVec.ofNat 16 1)), .encLenLo (loByte (BitVec.ofNat 16 1))] ++
        [0x00#8].map .encData ∧
      noReset [.word 0x1002#16, .word 0x2055#16, .word 0x1100#16, .word 0x1201#16, .word 0x4000#16,
        .word 0x1300#16]) := by decide
theorem witness_EncoderInvariantKept :
    step { inPayload 1 with port := [.word 0x1400#16] } =
      .next { inPayload 1 with encState := .idle, encRemain := 0 } := rfl
theorem witness_DecRxHunting :
    State.reset.decState = .hunt0 ∧ ({ State.reset with decState := .hunt1 } : State).decState = .hunt1 ∧
    0x54#8 ≠ 0x55#8 ∧ 0xAA#8 ≠ 0x55#8 ∧ 0xAB#8 ≠ 0xAA#8 ∧ 0xAB#8 ≠ 0x55#8 := by decide
/-- The decoder waiting for a byte of the header or trailer, with a limit of 16 payload bytes. -/
def awaiting (d : DecState) : State := { State.reset with decState := d, decCmd := 0x04#8, params := ⟨16⟩ }
theorem witness_DecRxHeader :
    (awaiting .cmd).decState = .cmd ∧ (awaiting .lenHi).decState = .lenHi ∧ (awaiting .lenLo).decState = .lenLo ∧
    (0x0011#16 = hiByte (awaiting .lenLo).decLen ++ 0x11#8 ∧ (awaiting .lenLo).params.rxMaxLen < 0x0011#16) ∧
    (0x0000#16 = hiByte (awaiting .lenLo).decLen ++ 0x00#8 ∧ 0x0000#16 ≤ (awaiting .lenLo).params.rxMaxLen) ∧
    (0x0010#16 = hiByte (awaiting .lenLo).decLen ++ 0x10#8 ∧ 0x0010#16 ≤ (awaiting .lenLo).params.rxMaxLen ∧
      0x0010#16 ≠ 0x0000#16) := by decide
theorem witness_DecRxHeader_default :
    exec (.decRx 0x00#8) { State.reset with decState := .lenLo } =
      .next { State.reset with decState := .crcHi } := rfl
theorem witness_DecRxPayload :
    ({ awaiting .payload with decLen := 2 } : State).decCount + 1 ≠ ({ awaiting .payload with decLen := 2 } : State).decLen ∧
    ({ awaiting .payload with decLen := 1 } : State).decCount + 1 = ({ awaiting .payload with decLen := 1 } : State).decLen ∧
    (awaiting .payload).decState = .payload := by decide
theorem witness_DecRxChecksumAndVerdict :
    (awaiting .crcHi).decState = .crcHi ∧ (awaiting .crcLo).decState = .crcLo ∧
    (0x00FF#16 = hiByte (awaiting .crcLo).decCrcRx ++ 0xFF#8 ∧ 0x00FF#16 ≠ (awaiting .crcLo).decCrc) ∧
    (0xFFFF#16 = hiByte ({ awaiting .crcLo with decCrcRx := 0xFF00#16 } : State).decCrcRx ++ 0xFF#8 ∧
      0xFFFF#16 = (awaiting .crcLo).decCrc) ∧
    ((awaiting .crcLo).decCmd = 0x01#8 ∨ (awaiting .crcLo).decCmd = 0x02#8 ∨ (awaiting .crcLo).decCmd = 0x03#8 ∨
      (awaiting .crcLo).decCmd = 0x04#8) ∧
    ¬(({ awaiting .crcLo with decCmd := 0x05#8 } : State).decCmd = 0x01#8 ∨
      ({ awaiting .crcLo with decCmd := 0x05#8 } : State).decCmd = 0x02#8 ∨
      ({ awaiting .crcLo with decCmd := 0x05#8 } : State).decCmd = 0x03#8 ∨
      ({ awaiting .crcLo with decCmd := 0x05#8 } : State).decCmd = 0x04#8) := by decide
theorem witness_DecAbortResult :
    (awaiting .hunt0).decState = .hunt0 ∧ (awaiting .hunt1).decState = .hunt1 ∧
    ∀ d ∈ [DecState.cmd, .crcLo], (awaiting d).decState ≠ .hunt0 ∧ (awaiting d).decState ≠ .hunt1 := by decide
/-- The decoder's invariant is met in `PAYLOAD` too. -/
theorem witness_DecInv_payload : DecInv { awaiting .payload with decLen := 1 } :=
  { count_in_header := fun _ => rfl
    count_in_payload := fun _ => by decide
    count_in_trailer := fun h => by rcases h with h | h <;> cases h
    count_on_rxo := by decide
    running_crc := by decide }
theorem witness_DecoderInvariantKept :
    step { awaiting .payload with decLen := 1, port := [.word 0x2000#16] } =
      .next { awaiting .payload with
        decLen := 1, decCount := 1, decCrc := 0xE1F0#16, rxo := [.payload 0x00#8], decState := .crcHi } := rfl
/-- The link bytes of the END frame (vector V1), with an IRQ.SET between. -/
def endFrameInputs : List PortInput :=
  [.word 0x2055#16, .word 0x20AA#16, .word 0x3101#16, .word 0x2003#16, .word 0x2000#16, .word 0x2000#16,
    .word 0x20FF#16, .word 0x20FF#16]
theorem witness_DecoderRoundTrip :
    ([] : List Byte).length ≤ (awaiting .hunt0).params.rxMaxLen.toNat ∧ (awaiting .hunt0).decState = .hunt0 ∧
    opsOf .dec endFrameInputs = ([0x55#8, 0xAA#8, 0x03#8, hiByte (BitVec.ofNat 16 0), loByte (BitVec.ofNat 16 0)] ++
      [] ++ [hiByte (crc16 []), loByte (crc16 [])]).map .decRx ∧
    noReset endFrameInputs ∧ noCntClear endFrameInputs := by decide
/-- Vector V6: the payload 7E received as 7F. -/
def flippedInputs : List PortInput :=
  [.word 0x2055#16, .word 0x20AA#16, .word 0x2002#16, .word 0x2000#16, .word 0x2001#16, .word 0x207F#16,
    .word 0x207E#16, .word 0x20A9#16]
theorem witness_DecoderRejectsFlippedPayloadBit :
    ([] ++ 0x7E#8 :: []).length ≤ (awaiting .hunt0).params.rxMaxLen.toNat ∧
    opsOf .dec flippedInputs = ([0x55#8, 0xAA#8, 0x02#8, hiByte 1#16, loByte 1#16] ++
      ([] ++ (0x7E#8 ^^^ (1#8 <<< 0)) :: []) ++
      [hiByte (crc16 ([] ++ 0x7E#8 :: [])), loByte (crc16 ([] ++ 0x7E#8 :: []))]).map .decRx ∧
    noReset flippedInputs ∧ noCntClear flippedInputs := by decide
theorem witness_DecoderSyncsThroughGarbage :
    (∀ b ∈ [0x13#8], b ≠ 0x55#8) ∧
    opsOf .dec (.word 0x2013#16 :: .word 0x2055#16 :: endFrameInputs) =
      ([0x13#8] ++ List.replicate 1 0x55#8 ++ frameBytes 0x03#8 []).map .decRx ∧
    noReset (.word 0x2013#16 :: .word 0x2055#16 :: endFrameInputs) ∧
    noCntClear (.word 0x2013#16 :: .word 0x2055#16 :: endFrameInputs) := by decide
theorem witness_RplRxResult : ∀ b ∈ [0x00#8, 0x05#8, 0x07#8, 0x14#8, 0x16#8], b ≠ 0x06#8 ∧ b ≠ 0x15#8 := by decide
theorem witness_IrqSetResult :
    exec (.irqSet 0x04#8) { State.reset with evt := 0x04#8 } =
      .next { State.reset with evt := 0x04#8, irqEn := 0x04#8 } ∧
    exec (.irqSet 0x00#8) { State.reset with irqEn := 0xFF#8 } = .next State.reset := ⟨rfl, rfl⟩
theorem witness_EvtAckResult :
    exec (.evtAck 0x01#8) { State.reset with evt := 0x13#8 } = .next { State.reset with evt := 0x12#8 } := rfl
theorem witness_IrqIsEnabledAndPending :
    exec (.evtAck 0x80#8) { State.reset with evt := 0x81#8, irqEn := 0x80#8 } =
      .next { State.reset with evt := 0x01#8, irqEn := 0x80#8 } ∧
    (∀ k < 8, (0x81#8).getLsbD k = true → (0x80#8).getLsbD k = true → (0x80#8).getLsbD k = true) ∧
    exec (.irqSet 0x00#8) { State.reset with evt := 0xFF#8 } = .next { State.reset with evt := 0xFF#8 } ∧
    0xFF#8 &&& 0x00#8 = 0x00#8 := ⟨rfl, by decide, rfl, by decide⟩
theorem witness_ReadMapValues : 0x13#5 ≤ 0x13#5 ∧ 0x13#5 ≤ 0x1F#5 := by decide
/-- One operation per field, each changing it. -/
theorem witness_FieldsWrittenOnlyByTheirOperations :
    exec (.crcFeed 0x31#8) State.reset = .next { State.reset with crcVal := 0xC782#16 } ∧
    exec .encAbort (inPayload 1) = .next { inPayload 1 with encState := .idle, encRemain := 0 } ∧
    exec (.evtAck 0x01#8) { State.reset with evt := 0x01#8 } = .next State.reset ∧
    exec (.irqSet 0x01#8) State.reset = .next { State.reset with irqEn := 0x01#8 } ∧
    exec (.decRx 0x00#8) State.reset = .next { State.reset with cntDiscard := 1, evt := 0x08#8 } := by
  exact ⟨rfl, rfl, rfl, rfl, rfl⟩
theorem witness_UnitsAreIndependent :
    unitOf (.decRx 0x55#8) ≠ .enc ∧ Instr.decRx 0x55#8 ≠ .softReset ∧
    exec (.decRx 0x55#8) State.reset = .next { State.reset with decState := .hunt1 } :=
  ⟨by decide, by decide, rfl⟩
theorem witness_StatusRegistersAreNeverRead :
    exec (.encLenHi 0x00#8) State.reset = .next { State.reset with evt := 0x10#8 } ∧
    (Instr.encLenHi 0x00#8).opcode ≠ 0x3F#8 ∧ State.reset.evt.getLsbD 4 = false := ⟨rfl, by decide, by decide⟩
theorem witness_DatapathOperationsCommute :
    (decode 0x1003#16 = .op (.encBegin 0x03#8) ∧ decode 0x2055#16 = .op (.decRx 0x55#8) ∧
      unitOf (.encBegin 0x03#8) ≠ .ctl ∧ unitOf (.decRx 0x55#8) ≠ .ctl ∧
      unitOf (.encBegin 0x03#8) ≠ unitOf (.decRx 0x55#8)) ∧
    (decode 0x4000#16 = .illegal 0x40#8 ∧ decode 0x2206#16 = .op (.rplRx 0x06#8) ∧
      unitOf (.rplRx 0x06#8) ≠ .ctl) := by decide
/-- A step that appends to tx; it meets the hypothesis of the statements about every step. -/
theorem witness_everyStep :
    step { State.reset with port := [.word 0x1500#16] } = .next { State.reset with tx := [0x06#8] } := rfl
theorem witness_AtMostOneEventPerStep :
    step { State.reset with port := [.word 0x2206#16] } =
      .next { State.reset with rplByte := 0x06#8, rplClass := .ackR, evt := 0x80#8 } := rfl
theorem witness_RejectedOperationsArePrecise :
    exec (.encLenHi 0x00#8) State.reset = .next { State.reset with evt := 0x10#8 } ∧
    exec (.encReply 0x02#8) State.reset = .next { State.reset with evt := 0x20#8 } ∧
    State.reset.evt.getLsbD 4 = false ∧ (0x10#8).getLsbD 4 = true ∧
    State.reset.evt.getLsbD 5 = false ∧ (0x20#8).getLsbD 5 = true :=
  ⟨rfl, rfl, by decide, by decide, by decide, by decide⟩
theorem witness_IdempotentOperations :
    (∀ i ∈ [Instr.nop, .irqSet 0xFF#8, .softReset],
      i.opcode ∈ [0x00#8, 0x01#8, 0x14#8, 0x21#8, 0x31#8, 0x30#8, 0x32#8, 0x3F#8]) ∧
    exec (.irqSet 0xFF#8) State.reset = .next { State.reset with irqEn := 0xFF#8 } ∧
    execIllegal 0x40#8 State.reset = .next { State.reset with evt := 0x40#8 } := ⟨by decide, rfl, rfl⟩
theorem witness_StreamsOnlyGrow :
    step { State.reset with port := [.word 0x1500#16] } = .next { State.reset with tx := [0x06#8] } := rfl
theorem witness_BuildParameterNeverWritten :
    step { State.reset with port := [.word 0x0231#16, .hwReset] } =
      .next { State.reset with crcVal := 0xC782#16, port := [.hwReset] } := rfl
theorem witness_VerdictsAreCounted :
    step { awaiting .cmd with port := [.word 0x2100#16] } =
      .next { awaiting .cmd with
        decVerdict := .aborted, rxo := [] ++ [.frameEnd .aborted 0x04#8 0x0000#16], cntRxBad := 1, evt := 0x02#8
        decState := .hunt0 } ∧
    (∀ v cmd len, ([] : List RxEvent) ≠ [] ++ [.frameEnd v cmd len]) := ⟨rfl, fun _ _ _ h => by cases h⟩
theorem witness_InvariantsHoldWhenReachable :
    Reachable { State.reset with crcVal := 0xC782#16 } :=
  .step { State.reset with port := [] ++ [.word 0x0231#16] } _
    (.arrive _ [.word 0x0231#16] (.start Params.default)) rfl
theorem witness_EndVerdictsKept :
    EndsHaveVerdict (awaiting .cmd) ∧
    step { awaiting .cmd with port := [.word 0x2100#16] } =
      .next { awaiting .cmd with
        decVerdict := .aborted, rxo := [.frameEnd .aborted 0x04#8 0x0000#16], cntRxBad := 1, evt := 0x02#8
        decState := .hunt0 } := ⟨fun _ _ _ h => (List.not_mem_nil h).elim, rfl⟩

end Sys2Proof.Tests
end

/-! ## Facts about the shared operations that the statements on the state use -/

namespace Sys2Proof.Machine

/-- What DEC.RX does with a byte in each decoder state (42_decoder.md R130). -/
def rxByte (b : Byte) (d : DecState) : State → State :=
  match d with
  | .hunt0 => rxHunt0 b
  | .hunt1 => rxHunt1 b
  | .cmd => rxCmd b
  | .lenHi => rxLenHi b
  | .lenLo => rxLenLo b
  | .payload => rxPayload b
  | .crcHi => rxCrcHi b
  | .crcLo => rxCrcLo b

theorem exec_decRx (b : Byte) (s : State) : exec (.decRx b) s = .next (rxByte b s.decState s) := by
  simp only [exec, execDecRx]
  cases s.decState <;> rfl

/-- What DEC.ABORT does in each decoder state (R141): out of frame only `HUNT1` holds a byte to discard,
and in frame the frame is abandoned. -/
def abortIn (d : DecState) : State → State :=
  match d with
  | .hunt0 => id
  | .hunt1 => fun s => { discardBytes 1 s with decState := .hunt0 }
  | _ => frameEnd .aborted

theorem exec_decAbort (s : State) : exec .decAbort s = .next (abortIn s.decState s) := by
  simp only [exec, execDecAbort]
  cases s.decState <;> rfl

/-- Both resets carry out `resetBlock`, and nothing else can come of them (R164, R200). -/
theorem eq_resetBlock_of_reset (s t : State)
    (h : exec .softReset s = .next t ∨ execInput .hwReset s = .next t) : t = resetBlock s := by
  rcases h with h | h <;> exact (Host.Outcome.next.inj h).symm

end Sys2Proof.Machine

/-! ## What each operation can write (10_state.md R43) -/

namespace Sys2Proof.Machine

/-- `s` with the fields that R43 lets the operation `i` write taken from `t`: the table of R43 read by
operation. -/
def takeWritten (i : Instr) (t s : State) : State :=
  match i with
  | .nop => s
  | .crcInit => { s with crcVal := t.crcVal }
  | .crcFeed _ => { s with crcVal := t.crcVal }
  | .encBegin _ => { s with
      encState := t.encState, encCmd := t.encCmd, encLen := t.encLen, encRemain := t.encRemain
      encCrc := t.encCrc, evt := t.evt }
  | .encLenHi _ => { s with encState := t.encState, encLen := t.encLen, evt := t.evt }
  | .encLenLo _ => { s with
      encState := t.encState, encLen := t.encLen, encRemain := t.encRemain, cntTx := t.cntTx
      evt := t.evt, tx := t.tx }
  | .encData _ => { s with
      encState := t.encState, encRemain := t.encRemain, encCrc := t.encCrc, cntTx := t.cntTx
      evt := t.evt, tx := t.tx }
  | .encAbort => { s with encState := t.encState, encRemain := t.encRemain }
  | .encReply _ => { s with evt := t.evt, tx := t.tx }
  | .decRx _ => { s with
      decState := t.decState, decCmd := t.decCmd, decLen := t.decLen, decCount := t.decCount
      decCrc := t.decCrc, decCrcRx := t.decCrcRx, decVerdict := t.decVerdict, cntRxOk := t.cntRxOk
      cntRxBad := t.cntRxBad, cntDiscard := t.cntDiscard, evt := t.evt, rxo := t.rxo }
  | .decAbort => { s with
      decState := t.decState, decVerdict := t.decVerdict, cntRxOk := t.cntRxOk
      cntRxBad := t.cntRxBad, cntDiscard := t.cntDiscard, evt := t.evt, rxo := t.rxo }
  | .rplRx _ => { s with rplClass := t.rplClass, rplByte := t.rplByte, evt := t.evt }
  | .evtAck _ => { s with evt := t.evt }
  | .irqSet _ => { s with irqEn := t.irqEn }
  | .cntClear => { s with
      cntTx := t.cntTx, cntRxOk := t.cntRxOk, cntRxBad := t.cntRxBad, cntDiscard := t.cntDiscard }
  | .softReset => { t with tx := s.tx, rxo := s.rxo, params := s.params, port := s.port }

/-- An operation behind the sequence check keeps to its fields when it does so on both sides of the check. -/
theorem whenEnc_eq_takeWritten (i : Instr) (want : EncState) (body : State → State) (s : State)
    (hseq : raise .seqErr s = takeWritten i (raise .seqErr s) s)
    (hbody : body s = takeWritten i (body s) s) :
    whenEnc want body s = takeWritten i (whenEnc want body s) s := by
  unfold whenEnc
  split
  · exact hbody
  · exact hseq

theorem rxByte_eq_takeWritten (b : Byte) (d : DecState) (s : State) :
    rxByte b d s = takeWritten (.decRx b) (rxByte b d s) s := by
  cases d with
  | hunt0 => dsimp only [rxByte, rxHunt0]; split <;> rfl
  | hunt1 =>
    dsimp only [rxByte, rxHunt1]
    split
    · rfl
    · split <;> rfl
  | lenLo =>
    dsimp only [rxByte]
    rcases rxLenLo_cases b s with ⟨-, hl⟩ | ⟨-, -, hl⟩ | ⟨-, -, hl⟩ <;> rw [hl] <;> rfl
  | _ => rfl

/-- The next state differs from the state at most in the fields R43 lets the operation write. -/
theorem exec_writes (i : Instr) (s t : State) (h : exec i s = .next t) : t = takeWritten i t s := by
  cases i with
  | encBegin c => cases h; exact whenEnc_eq_takeWritten _ _ _ s rfl (by split <;> rfl)
  | encLenHi h' => cases h; exact whenEnc_eq_takeWritten _ _ _ s rfl rfl
  | encLenLo l => cases h; exact whenEnc_eq_takeWritten _ _ _ s rfl (by split <;> rfl)
  | encData b => cases h; exact whenEnc_eq_takeWritten _ _ _ s rfl (by split <;> rfl)
  | encReply r => cases h; exact whenEnc_eq_takeWritten _ _ _ s rfl (by split <;> rfl)
  | encAbort => cases h; split <;> rfl
  | decRx b =>
    rw [exec_decRx] at h
    cases h
    exact rxByte_eq_takeWritten b s.decState s
  | decAbort =>
    rw [exec_decAbort] at h
    cases h
    cases s.decState <;> rfl
  | _ => cases h; rfl

/-- The table of R43 read by field, but for `evt`: from `s` to `t`, a field keeps its value unless the
operation is one listed for it. -/
structure KeepsUnlisted (i : Instr) (s t : State) : Prop where
  crcVal : i.opcode ∉ [0x01#8, 0x02#8, 0x3F#8] → t.crcVal = s.crcVal
  /-- The encoder registers that ENC.ABORT writes too. -/
  encProgress : i.opcode ∉ [0x10#8, 0x11#8, 0x12#8, 0x13#8, 0x14#8, 0x3F#8] →
    t.encState = s.encState ∧ t.encRemain = s.encRemain
  /-- The encoder registers that ENC.ABORT leaves. -/
  encFrame : i.opcode ∉ [0x10#8, 0x11#8, 0x12#8, 0x13#8, 0x3F#8] →
    t.encCmd = s.encCmd ∧ t.encLen = s.encLen ∧ t.encCrc = s.encCrc
  decoder : i.opcode ∉ [0x20#8, 0x21#8, 0x3F#8] →
    t.decState = s.decState ∧ t.decCmd = s.decCmd ∧ t.decLen = s.decLen ∧ t.decCount = s.decCount ∧
    t.decCrc = s.decCrc ∧ t.decCrcRx = s.decCrcRx ∧ t.decVerdict = s.decVerdict
  reply : i.opcode ∉ [0x22#8, 0x3F#8] → t.rplClass = s.rplClass ∧ t.rplByte = s.rplByte
  irqEn : i.opcode ∉ [0x31#8, 0x3F#8] → t.irqEn = s.irqEn
  cntTx : i.opcode ∉ [0x12#8, 0x13#8, 0x32#8, 0x3F#8] → t.cntTx = s.cntTx
  rxCounters : i.opcode ∉ [0x20#8, 0x21#8, 0x32#8, 0x3F#8] →
    t.cntRxOk = s.cntRxOk ∧ t.cntRxBad = s.cntRxBad ∧ t.cntDiscard = s.cntDiscard
  tx : i.opcode ∉ [0x12#8, 0x13#8, 0x15#8] → t.tx = s.tx
  rxo : i.opcode ∉ [0x20#8, 0x21#8] → t.rxo = s.rxo
  params : t.params = s.params
  port : t.port = s.port

/-- R43's table read by operation and read by field agree. -/
theorem takeWritten_keepsUnlisted (i : Instr) (t s : State) : KeepsUnlisted i s (takeWritten i t s) := by
  cases i <;> constructor <;> simp [Instr.opcode, takeWritten]

theorem exec_keepsUnlisted (i : Instr) (s t : State) (h : exec i s = .next t) : KeepsUnlisted i s t := by
  rw [exec_writes i s t h]
  exact takeWritten_keepsUnlisted i t s

end Sys2Proof.Machine

/-! ## The status registers are written blindly (10_state.md R36, 60_exceptions.md R181) -/

namespace Sys2Proof.Machine

/-- `s` with other values in `evt` and `irq_en`. -/
def withStatus (e m : Byte) (s : State) : State := { s with evt := e, irqEn := m }

/-- From every state, `f` sets the bits `x` of `evt`, which are none or one event's, and does the rest of
its work, whatever `evt` and `irq_en` hold. -/
def RaisesBlindly (f : State → State) : Prop :=
  ∀ s : State, ∃ (x : Byte) (t : State), (x = 0x00#8 ∨ ∃ ev, x = evtMask ev) ∧
    ∀ e m : Byte, f (withStatus e m s) = withStatus (e ||| x) m t

theorem RaisesBlindly.of_quiet {f : State → State}
    (hf : ∀ s e m, f (withStatus e m s) = withStatus e m (f s)) : RaisesBlindly f :=
  fun s => ⟨0x00#8, f s, .inl rfl, fun e m => by rw [BitVec.or_zero, hf]⟩

theorem RaisesBlindly.of_raise {f : State → State} (ev : State → Evt)
    (hf : ∀ s e m, f (withStatus e m s) = withStatus (e ||| evtMask (ev s)) m (f s)) :
    RaisesBlindly f :=
  fun s => ⟨evtMask (ev s), f s, .inr ⟨ev s, rfl⟩, hf s⟩

theorem RaisesBlindly.ite {f g : State → State} (c : State → Prop) [DecidablePred c]
    (hc : ∀ s e m, c (withStatus e m s) = c s) (hf : RaisesBlindly f) (hg : RaisesBlindly g) :
    RaisesBlindly fun s => if c s then f s else g s := by
  intro s
  by_cases h : c s
  · simpa only [hc, if_pos h] using hf s
  · simpa only [hc, if_neg h] using hg s

theorem RaisesBlindly.byDecState {f : DecState → State → State} (hf : ∀ d, RaisesBlindly (f d)) :
    RaisesBlindly fun s => f s.decState s :=
  fun s => hf s.decState s

theorem raise_raisesBlindly (ev : Evt) : RaisesBlindly (raise ev) :=
  .of_raise (fun _ => ev) fun _ _ _ => rfl

theorem discardBytes_raisesBlindly (n : Half) : RaisesBlindly (discardBytes n) :=
  .of_raise (fun _ => .rxDiscard) fun _ _ _ => rfl

theorem whenEnc_raisesBlindly (want : EncState) {body : State → State} (hbody : RaisesBlindly body) :
    RaisesBlindly (whenEnc want body) :=
  .ite (fun s => s.encState = want) (fun _ _ _ => rfl) hbody (raise_raisesBlindly .seqErr)

theorem rxByte_raisesBlindly (b : Byte) (d : DecState) : RaisesBlindly (rxByte b d) := by
  cases d with
  | hunt0 =>
    exact .ite (fun _ => b = pre0) (fun _ _ _ => rfl) (.of_quiet fun _ _ _ => rfl)
      (discardBytes_raisesBlindly 1)
  | hunt1 =>
    exact .ite (fun _ => b = pre1) (fun _ _ _ => rfl) (.of_quiet fun _ _ _ => rfl)
      (.ite (fun _ => b = pre0) (fun _ _ _ => rfl) (discardBytes_raisesBlindly 1)
        (.of_raise (fun _ => .rxDiscard) fun _ _ _ => rfl))
  | lenLo =>
    exact .ite (fun s => s.params.rxMaxLen < setLow s.decLen b) (fun _ _ _ => rfl)
      (.of_raise (fun _ => .rxBad) fun _ _ _ => rfl)
      (.ite (fun s => setLow s.decLen b = 0x0000#16) (fun _ _ _ => rfl)
        (.of_quiet fun _ _ _ => rfl) (.of_quiet fun _ _ _ => rfl))
  | crcLo =>
    exact .of_raise (fun s => verdictEvt (frameVerdict (setLow s.decCrcRx b) s.decCrc s.decCmd))
      fun _ _ _ => rfl
  | _ => exact .of_quiet fun _ _ _ => rfl

theorem abortIn_raisesBlindly (d : DecState) : RaisesBlindly (abortIn d) := by
  cases d with
  | hunt0 => exact .of_quiet fun _ _ _ => rfl
  | hunt1 => exact .of_raise (fun _ => .rxDiscard) fun _ _ _ => rfl
  | _ => exact .of_raise (fun _ => .rxBad) fun _ _ _ => rfl

/-- Every operation but the three that write the status registers raises at most one event, and does so
blindly. -/
theorem exec_raisesBlindly (i : Instr) (hi : i.opcode ∉ [0x30#8, 0x31#8, 0x3F#8]) :
    ∃ f, (∀ s, exec i s = .next (f s)) ∧ RaisesBlindly f := by
  cases i with
  | encBegin c =>
    exact ⟨_, fun _ => rfl, whenEnc_raisesBlindly .idle
      (.ite (fun _ => isCommand c = true) (fun _ _ _ => rfl) (.of_quiet fun _ _ _ => rfl)
        (raise_raisesBlindly .cmdErr))⟩
  | encLenHi h => exact ⟨_, fun _ => rfl, whenEnc_raisesBlindly .lenHi (.of_quiet fun _ _ _ => rfl)⟩
  | encLenLo l =>
    exact ⟨_, fun _ => rfl, whenEnc_raisesBlindly .lenLo
      (.ite (fun s => setLow s.encLen l = 0x0000#16) (fun _ _ _ => rfl)
        (.of_raise (fun _ => .txDone) fun _ _ _ => rfl) (.of_quiet fun _ _ _ => rfl))⟩
  | encData b =>
    exact ⟨_, fun _ => rfl, whenEnc_raisesBlindly .payload
      (.ite (fun s => s.encRemain - 1 = 0x0000#16) (fun _ _ _ => rfl)
        (.of_raise (fun _ => .txDone) fun _ _ _ => rfl) (.of_quiet fun _ _ _ => rfl))⟩
  | encReply r =>
    refine ⟨_, fun _ => rfl, whenEnc_raisesBlindly .idle ?_⟩
    cases replyByte r with
    | some b => exact .of_quiet fun _ _ _ => rfl
    | none => exact raise_raisesBlindly .cmdErr
  | encAbort =>
    exact ⟨_, fun _ => rfl, .ite (fun s => s.encState = .idle) (fun _ _ _ => rfl)
      (.of_quiet fun _ _ _ => rfl) (.of_quiet fun _ _ _ => rfl)⟩
  | decRx b => exact ⟨_, exec_decRx b, .byDecState (rxByte_raisesBlindly b)⟩
  | decAbort => exact ⟨_, exec_decAbort, .byDecState abortIn_raisesBlindly⟩
  | rplRx b => exact ⟨_, fun _ => rfl, .of_raise (fun _ => .rplRx) fun _ _ _ => rfl⟩
  | evtAck m => simp [Instr.opcode] at hi
  | irqSet m => simp [Instr.opcode] at hi
  | softReset => simp [Instr.opcode] at hi
  | _ => exact ⟨_, fun _ => rfl, .of_quiet fun _ _ _ => rfl⟩

/-- What such an operation does to `evt` from one state it does to any contents of `evt` there. -/
theorem exec_eq_withStatus (i : Instr) (s t : State) (h : exec i s = .next t)
    (hi : i.opcode ∉ [0x30#8, 0x31#8, 0x3F#8]) :
    ∃ (x : Byte) (t₀ : State), (x = 0x00#8 ∨ ∃ ev, x = evtMask ev) ∧
      t = withStatus (s.evt ||| x) s.irqEn t₀ ∧
      ∀ e m : Byte, exec i (withStatus e m s) = .next (withStatus (e ||| x) m t₀) := by
  obtain ⟨f, hf, hblind⟩ := exec_raisesBlindly i hi
  obtain ⟨x, t₀, hx, hft⟩ := hblind s
  have hexec : ∀ e m : Byte, exec i (withStatus e m s) = .next (withStatus (e ||| x) m t₀) :=
    fun e m => by rw [hf, hft]
  exact ⟨x, t₀, hx, Host.Outcome.next.inj (h.symm.trans (hexec s.evt s.irqEn)), hexec⟩

/-- Settles O49: but for the three operations that write the status registers, an operation raises the same
event whatever they hold; those three compute each register from itself and the operand alone. -/
theorem statusRegistersAreNeverRead : Obligations.StatusRegistersAreNeverRead := by
  intro i s t e m h
  by_cases hi : i.opcode ∈ [0x30#8, 0x31#8, 0x3F#8]
  · cases i with
    | evtAck m' =>
      cases h
      exact ⟨_, rfl, rfl, fun _ k _ hs he => by simp [ackEvt, hs, he]⟩
    | irqSet m' =>
      cases h
      exact ⟨_, rfl, rfl, fun _ k _ hs he => he.trans hs.symm⟩
    | softReset =>
      cases h
      exact ⟨_, rfl, rfl, fun hne => absurd rfl hne⟩
    | _ => simp [Instr.opcode] at hi
  · obtain ⟨x, t₀, -, rfl, hexec⟩ := exec_eq_withStatus i s t h hi
    exact ⟨_, hexec e m, rfl, fun _ k _ hs he => by simp [withStatus, hs, he]⟩

/-- An event bit goes from 1 to 0 only under EVT.ACK and SOFT.RESET (R181). -/
theorem evt_kept (i : Instr) (s t : State) (h : exec i s = .next t) (hi : i.opcode ∉ [0x30#8, 0x3F#8]) :
    s.evt &&& ~~~t.evt = 0x00#8 := by
  by_cases hirq : i.opcode = 0x31#8
  · have ht : t.evt = s.evt := by
      rw [exec_writes i s t h]
      cases i <;> simp [Instr.opcode, takeWritten] at hirq ⊢
    rw [ht]
    exact BitVec.and_not_self s.evt
  · obtain ⟨x, t₀, -, rfl, -⟩ := exec_eq_withStatus i s t h (by simpa [hirq] using hi)
    show s.evt &&& ~~~(s.evt ||| x) = 0x00#8
    rw [BitVec.not_or, ← BitVec.and_assoc, BitVec.and_not_self]
    exact BitVec.zero_and

/-- Settles O47: R43's table by field, from the same table by operation (`exec_writes`). -/
theorem fieldsWrittenOnlyByTheirOperations : Obligations.FieldsWrittenOnlyByTheirOperations := by
  refine ⟨fun i s t h => ?_, fun _ => rfl⟩
  have hk := exec_keepsUnlisted i s t h
  simp only [ne_eq, ← not_and_or]
  exact ⟨not_imp_comm.1 hk.crcVal, not_imp_comm.1 hk.encProgress, not_imp_comm.1 hk.encFrame,
    not_imp_comm.1 hk.decoder, not_imp_comm.1 hk.reply, not_imp_comm.1 (evt_kept i s t h),
    not_imp_comm.1 hk.irqEn, not_imp_comm.1 hk.cntTx, not_imp_comm.1 hk.rxCounters,
    not_imp_comm.1 hk.tx, not_imp_comm.1 hk.rxo, hk.params, hk.port⟩

end Sys2Proof.Machine

/-! ## Units do not touch each other (10_state.md R21) -/

namespace Sys2Proof.Machine

/-- `f` neither reads nor writes the datapath fields and the stream of the unit `u`. -/
def IgnoresUnit (u : BlockUnit) (f : State → State) : Prop :=
  ∀ r s : State, f (copyUnit u r s) = copyUnit u r (f s)

theorem IgnoresUnit.ite {u : BlockUnit} {f g : State → State} (c : State → Prop) [DecidablePred c]
    (hc : ∀ r s, c (copyUnit u r s) = c s) (hf : IgnoresUnit u f) (hg : IgnoresUnit u g) :
    IgnoresUnit u fun s => if c s then f s else g s := by
  intro r s
  simp only [hc, hf r s, hg r s, apply_ite (copyUnit u r)]

theorem IgnoresUnit.byDecState {u : BlockUnit} (hu : u ≠ .dec) {f : DecState → State → State}
    (hf : ∀ d, IgnoresUnit u (f d)) : IgnoresUnit u fun s => f s.decState s := by
  have hdec : ∀ r s : State, (copyUnit u r s).decState = s.decState := by
    cases u with
    | dec => exact absurd rfl hu
    | _ => exact fun _ _ => rfl
  intro r s
  simp only [hdec, hf s.decState r s]

theorem raise_ignoresUnit (u : BlockUnit) (ev : Evt) : IgnoresUnit u (raise ev) := by
  cases u <;> exact fun _ _ => rfl

theorem whenEnc_ignoresUnit {u : BlockUnit} (hu : u ≠ .enc) (want : EncState) {body : State → State}
    (hbody : IgnoresUnit u body) : IgnoresUnit u (whenEnc want body) := by
  have henc : ∀ r s : State, (copyUnit u r s).encState = s.encState := by
    cases u with
    | enc => exact absurd rfl hu
    | _ => exact fun _ _ => rfl
  exact .ite (fun s => s.encState = want) (fun r s => by rw [henc]) hbody (raise_ignoresUnit u .seqErr)

theorem exec_enc_ignoresUnit (i : Instr) (u : BlockUnit) (hi : unitOf i = .enc) (hu : u ≠ .enc) :
    ∃ f, (∀ s, exec i s = .next (f s)) ∧ IgnoresUnit u f := by
  cases u with
  | enc => exact absurd rfl hu
  | _ =>
    cases i with
    | encBegin c =>
      exact ⟨_, fun _ => rfl, whenEnc_ignoresUnit hu .idle
        (.ite (fun _ => isCommand c = true) (fun _ _ => rfl) (fun _ _ => rfl)
          (raise_ignoresUnit _ .cmdErr))⟩
    | encLenHi h => exact ⟨_, fun _ => rfl, whenEnc_ignoresUnit hu .lenHi fun _ _ => rfl⟩
    | encLenLo l =>
      exact ⟨_, fun _ => rfl, whenEnc_ignoresUnit hu .lenLo
        (.ite (fun s => setLow s.encLen l = 0x0000#16) (fun _ _ => rfl) (fun _ _ => rfl)
          fun _ _ => rfl)⟩
    | encData b =>
      exact ⟨_, fun _ => rfl, whenEnc_ignoresUnit hu .payload
        (.ite (fun s => s.encRemain - 1 = 0x0000#16) (fun _ _ => rfl) (fun _ _ => rfl)
          fun _ _ => rfl)⟩
    | encReply r =>
      refine ⟨_, fun _ => rfl, whenEnc_ignoresUnit hu .idle ?_⟩
      cases replyByte r with
      | some b => exact fun _ _ => rfl
      | none => exact raise_ignoresUnit _ .cmdErr
    | encAbort =>
      exact ⟨_, fun _ => rfl, .ite (fun s => s.encState = .idle) (fun _ _ => rfl) (fun _ _ => rfl)
        fun _ _ => rfl⟩
    | _ => cases hi

theorem rxByte_ignoresUnit {u : BlockUnit} (hu : u ≠ .dec) (b : Byte) (d : DecState) :
    IgnoresUnit u (rxByte b d) := by
  cases u with
  | dec => exact absurd rfl hu
  | _ =>
    cases d with
    | hunt0 => exact .ite (fun _ => b = pre0) (fun _ _ => rfl) (fun _ _ => rfl) fun _ _ => rfl
    | hunt1 =>
      exact .ite (fun _ => b = pre1) (fun _ _ => rfl) (fun _ _ => rfl)
        (.ite (fun _ => b = pre0) (fun _ _ => rfl) (fun _ _ => rfl) fun _ _ => rfl)
    | lenLo =>
      exact .ite (fun s => s.params.rxMaxLen < setLow s.decLen b) (fun _ _ => rfl) (fun _ _ => rfl)
        (.ite (fun s => setLow s.decLen b = 0x0000#16) (fun _ _ => rfl) (fun _ _ => rfl)
          fun _ _ => rfl)
    | _ => exact fun _ _ => rfl

theorem abortIn_ignoresUnit {u : BlockUnit} (hu : u ≠ .dec) (d : DecState) :
    IgnoresUnit u (abortIn d) := by
  cases u with
  | dec => exact absurd rfl hu
  | _ => cases d <;> exact fun _ _ => rfl

theorem exec_dec_ignoresUnit (i : Instr) (u : BlockUnit) (hi : unitOf i = .dec) (hu : u ≠ .dec) :
    ∃ f, (∀ s, exec i s = .next (f s)) ∧ IgnoresUnit u f := by
  cases i with
  | decRx b => exact ⟨_, exec_decRx b, .byDecState hu (rxByte_ignoresUnit hu b)⟩
  | decAbort => exact ⟨_, exec_decAbort, .byDecState hu (abortIn_ignoresUnit hu)⟩
  | _ => cases hi

theorem exec_crc_ignoresUnit (i : Instr) (u : BlockUnit) (hi : unitOf i = .crc) (hu : u ≠ .crc) :
    ∃ f, (∀ s, exec i s = .next (f s)) ∧ IgnoresUnit u f := by
  cases u with
  | crc => exact absurd rfl hu
  | _ =>
    cases i with
    | crcInit => exact ⟨_, fun _ => rfl, fun _ _ => rfl⟩
    | crcFeed b => exact ⟨_, fun _ => rfl, fun _ _ => rfl⟩
    | _ => cases hi

theorem exec_rpl_ignoresUnit (i : Instr) (u : BlockUnit) (hi : unitOf i = .rpl) (hu : u ≠ .rpl) :
    ∃ f, (∀ s, exec i s = .next (f s)) ∧ IgnoresUnit u f := by
  cases i with
  | rplRx b =>
    cases u with
    | rpl => exact absurd rfl hu
    | _ => exact ⟨_, fun _ => rfl, fun _ _ => rfl⟩
  | _ => cases hi

/-- A control operation other than SOFT.RESET works on the status registers and the counters alone. -/
theorem exec_ctl_ignoresUnit (i : Instr) (u : BlockUnit) (hi : unitOf i = .ctl) (hr : i ≠ .softReset) :
    ∃ f, (∀ s, exec i s = .next (f s)) ∧ IgnoresUnit u f := by
  cases i with
  | softReset => exact absurd rfl hr
  | nop => exact ⟨_, fun _ => rfl, fun _ _ => rfl⟩
  | evtAck m => exact ⟨_, fun _ => rfl, by cases u <;> exact fun _ _ => rfl⟩
  | irqSet m => exact ⟨_, fun _ => rfl, by cases u <;> exact fun _ _ => rfl⟩
  | cntClear => exact ⟨_, fun _ => rfl, by cases u <;> exact fun _ _ => rfl⟩
  | _ => cases hi

/-- No operation but SOFT.RESET reads or writes the datapath fields of another unit (R21). -/
theorem exec_ignoresUnit (i : Instr) (u : BlockUnit) (hu : unitOf i ≠ u) (hr : i ≠ .softReset) :
    ∃ f, (∀ s, exec i s = .next (f s)) ∧ IgnoresUnit u f := by
  cases hi : unitOf i with
  | crc => exact exec_crc_ignoresUnit i u hi fun h => hu (hi.trans h.symm)
  | enc => exact exec_enc_ignoresUnit i u hi fun h => hu (hi.trans h.symm)
  | dec => exact exec_dec_ignoresUnit i u hi fun h => hu (hi.trans h.symm)
  | rpl => exact exec_rpl_ignoresUnit i u hi fun h => hu (hi.trans h.symm)
  | ctl => exact exec_ctl_ignoresUnit i u hi hr

/-- Settles O48: the operation acts by a function of the state that ignores the unit. -/
theorem unitsAreIndependent : Obligations.UnitsAreIndependent := by
  intro i u r s t hu hr h
  obtain ⟨f, hf, hfu⟩ := exec_ignoresUnit i u hu hr
  have ht : f s = t := Host.Outcome.next.inj ((hf s).symm.trans h)
  rw [hf, hfu r s, ht]

end Sys2Proof.Machine

/-! ## The streams only grow (10_state.md R39, 20_memory.md R57) -/

namespace Sys2Proof.Machine

/-- `l'` is `l` with at most `n` elements appended. -/
def GrowsBy {α : Type} (n : Nat) (l l' : List α) : Prop := ∃ more, l' = l ++ more ∧ more.length ≤ n

theorem GrowsBy.of_eq {α : Type} {n : Nat} {l l' : List α} (h : l' = l) : GrowsBy n l l' :=
  ⟨[], by rw [h, List.append_nil], Nat.zero_le n⟩

theorem GrowsBy.append {α : Type} {n : Nat} (l more : List α) (h : more.length ≤ n) :
    GrowsBy n l (l ++ more) :=
  ⟨more, rfl, h⟩

theorem whenEnc_tx_grows {n : Nat} (want : EncState) (body : State → State) (s : State)
    (h : GrowsBy n s.tx (body s).tx) : GrowsBy n s.tx (whenEnc want body s).tx := by
  unfold whenEnc
  split
  · exact h
  · exact .of_eq rfl

/-- The longest emission is a whole frame with no payload, five header bytes and two of checksum. -/
theorem exec_tx_grows (i : Instr) (s t : State) (h : exec i s = .next t) : GrowsBy 7 s.tx t.tx := by
  cases i with
  | encLenLo l =>
    cases h
    refine whenEnc_tx_grows _ _ s ?_
    split
    · rw [finishTx_tx, emitHeader_tx, List.append_assoc]
      exact .append _ _ (Nat.le_refl 7)
    · exact .append _ (frameHeader s.encCmd (setLow s.encLen l)) (by simp [frameHeader])
  | encData b =>
    cases h
    refine whenEnc_tx_grows _ _ s ?_
    split
    · rw [finishTx_tx, pushPayload_tx, List.append_assoc]
      exact .append _ _ (by simp [frameTrailer])
    · exact .append _ [b] (by simp)
  | encReply r =>
    cases h
    refine whenEnc_tx_grows _ _ s ?_
    split
    · exact .append _ _ (by simp)
    · exact .of_eq rfl
  | _ => exact .of_eq ((exec_keepsUnlisted _ s t h).tx (by simp [Instr.opcode]))

theorem frameEnd_rxo_grows (v : Verdict) (s : State) : GrowsBy 1 s.rxo (frameEnd v s).rxo :=
  .append _ _ (Nat.le_refl 1)

theorem rxByte_rxo_grows (b : Byte) (d : DecState) (s : State) : GrowsBy 1 s.rxo (rxByte b d s).rxo := by
  cases d with
  | hunt0 => exact .of_eq (by dsimp only [rxByte, rxHunt0]; split <;> rfl)
  | hunt1 =>
    refine .of_eq ?_
    dsimp only [rxByte, rxHunt1]
    split
    · rfl
    · split <;> rfl
  | lenLo =>
    dsimp only [rxByte]
    rcases rxLenLo_cases b s with ⟨-, hl⟩ | ⟨-, -, hl⟩ | ⟨-, -, hl⟩ <;> rw [hl]
    · exact frameEnd_rxo_grows .lenErr _
    · exact .of_eq rfl
    · exact .of_eq rfl
  | payload => exact .append _ _ (Nat.le_refl 1)
  | crcLo => exact frameEnd_rxo_grows _ { s with decCrcRx := setLow s.decCrcRx b }
  | _ => exact .of_eq rfl

theorem abortIn_rxo_grows (d : DecState) (s : State) : GrowsBy 1 s.rxo (abortIn d s).rxo := by
  cases d with
  | hunt0 => exact .of_eq rfl
  | hunt1 => exact .of_eq rfl
  | _ => exact frameEnd_rxo_grows .aborted s

theorem exec_rxo_grows (i : Instr) (s t : State) (h : exec i s = .next t) : GrowsBy 1 s.rxo t.rxo := by
  cases i with
  | decRx b =>
    rw [exec_decRx] at h
    cases h
    exact rxByte_rxo_grows b s.decState s
  | decAbort =>
    rw [exec_decAbort] at h
    cases h
    exact abortIn_rxo_grows s.decState s
  | _ => exact .of_eq ((exec_keepsUnlisted _ s t h).rxo (by simp [Instr.opcode]))

/-- Settles O51: an operation appends within the bounds, and every other kind of step leaves both streams
as they are. -/
theorem streamsOnlyGrow : Obligations.StreamsOnlyGrow := by
  refine ⟨fun s t h => ?_, rfl, rfl⟩
  show GrowsBy 7 s.tx t.tx ∧ GrowsBy 1 s.rxo t.rxo
  rcases step_cases s with ⟨-, hs⟩ | ⟨rest, -, hs⟩ | ⟨w, i, rest, -, -, hs⟩ | ⟨w, op, rest, -, -, hs⟩ <;>
    rw [hs] at h
  · cases h
    exact ⟨.of_eq rfl, .of_eq rfl⟩
  · cases h
    exact ⟨.of_eq rfl, .of_eq rfl⟩
  · exact ⟨exec_tx_grows i { s with port := rest } t h,
      exec_rxo_grows i { s with port := rest } t h⟩
  · cases h
    exact ⟨.of_eq rfl, .of_eq rfl⟩

end Sys2Proof.Machine

/-! ## Reset values and the read port (10_state.md R40, R41) -/

namespace Sys2Proof.Machine

/-- Settles O10: the reset state's fields are written out, and either reset of a state is `resetBlock`. -/
theorem resetStateValues : Obligations.ResetStateValues := by
  have hreset : ∀ s t : State, exec .softReset s = .next t ∨ execInput .hwReset s = .next t →
      { t with tx := [], rxo := [], params := State.reset.params, port := [] } = State.reset ∧
        t.tx = s.tx ∧ t.rxo = s.rxo := by
    intro s t h
    rw [eq_resetBlock_of_reset s t h, resetBlock_tx, resetBlock_rxo]
    exact ⟨rfl, rfl, rfl⟩
  exact ⟨rfl, rfl, rfl, rfl, rfl, rfl, rfl, rfl, rfl, rfl, rfl, rfl, rfl, rfl, rfl, rfl, rfl, rfl, rfl, rfl,
    rfl, rfl, rfl, hreset⟩

/-- A reserved address reads 0 (R47). -/
theorem readReg_reserved (a : ReadAddr) (s : State) (ha : 0x13#5 ≤ a) : readReg a s = 0x0000#16 := by
  have hn : 19 ≤ a.toNat := ha
  unfold readReg
  split
  case h_20 => rfl
  all_goals omega

/-- The one-bit interrupt level in a 16-bit register (R41, R46). -/
theorem readReg_irqStat (s : State) : readReg 0x0D#5 s = if irq s = true then 1#16 else 0#16 := by
  show 0#15 ++ BitVec.ofBool (irq s) = _
  cases irq s <;> rfl

/-- Settles O46: the listed addresses read as R41 writes them out, and the rest is reserved. -/
theorem readMapValues : Obligations.ReadMapValues := by
  refine ⟨fun s => ?_, rfl, rfl, rfl, rfl, rfl, rfl⟩
  exact ⟨rfl, rfl, rfl, rfl, rfl, rfl, rfl, rfl, rfl, rfl, rfl, rfl, rfl, readReg_irqStat s, rfl, rfl, rfl,
    rfl, rfl, fun a ha => readReg_reserved a s ha⟩

end Sys2Proof.Machine

/-! ## Decoding by the opcode table (30_encoding.md R73, R75 to R77) -/

namespace Sys2Proof

/-- The opcode column of R73. -/
def definedOpcodes : List Byte :=
  [0x00#8, 0x01#8, 0x02#8, 0x10#8, 0x11#8, 0x12#8, 0x13#8, 0x14#8, 0x15#8, 0x20#8, 0x21#8, 0x22#8,
    0x30#8, 0x31#8, 0x32#8, 0x3F#8]

/-- `i` with the operand byte `b` where it uses one, and `i` itself where the operand is ignored (R72, R76). -/
def Instr.withOperand (i : Instr) (b : Byte) : Instr :=
  match i with
  | .crcFeed _ => .crcFeed b
  | .encBegin _ => .encBegin b
  | .encLenHi _ => .encLenHi b
  | .encLenLo _ => .encLenLo b
  | .encData _ => .encData b
  | .encReply _ => .encReply b
  | .decRx _ => .decRx b
  | .rplRx _ => .rplRx b
  | .evtAck _ => .evtAck b
  | .irqSet _ => .irqSet b
  | .nop | .crcInit | .encAbort | .decAbort | .cntClear | .softReset => i

/-- A word with an operation's opcode is that operation on the word's operand byte. -/
theorem decode_opcode_append (i : Instr) (b : Byte) :
    decode (i.opcode ++ b) = .op (i.withOperand b) := by
  unfold decode
  rw [opField_append, immField_append]
  cases i <;> rfl

/-- One operation for each row of R73, in the order of the table. -/
def tableOperations : List Instr :=
  [.nop, .crcInit, .crcFeed 0, .encBegin 0, .encLenHi 0, .encLenLo 0, .encData 0, .encAbort, .encReply 0,
    .decRx 0, .decAbort, .rplRx 0, .evtAck 0, .irqSet 0, .cntClear, .softReset]

theorem map_opcode_tableOperations : tableOperations.map Instr.opcode = definedOpcodes := rfl

/-- The table's opcodes are those of the operations. -/
theorem mem_definedOpcodes_iff (op : Byte) : op ∈ definedOpcodes ↔ ∃ i : Instr, i.opcode = op := by
  constructor
  · intro h
    rw [← map_opcode_tableOperations, List.mem_map] at h
    obtain ⟨i, -, hi⟩ := h
    exact ⟨i, hi⟩
  · rintro ⟨i, rfl⟩
    cases i <;> simp [definedOpcodes, Instr.opcode]

/-- An opcode outside the table falls through every arm of R75's case split. -/
theorem decode_append_of_not_mem (op b : Byte) (h : op ∉ definedOpcodes) :
    decode (op ++ b) = .illegal op := by
  unfold decode
  rw [opField_append]
  simp only [definedOpcodes, List.mem_cons, List.not_mem_nil, BitVec.toNat_eq, BitVec.toNat_ofNat] at h
  split
  case h_17 => rfl
  all_goals omega

/-- A word is illegal exactly when its opcode is none of the table's (R77). -/
theorem decode_append_eq_illegal_iff (op b : Byte) :
    decode (op ++ b) = .illegal op ↔ op ∉ definedOpcodes := by
  refine ⟨fun h hmem => ?_, decode_append_of_not_mem op b⟩
  obtain ⟨i, rfl⟩ := (mem_definedOpcodes_iff op).mp hmem
  rw [decode_opcode_append] at h
  cases h

/-- The gaps between the table's opcodes, as R77 lists them. -/
theorem not_mem_definedOpcodes_iff (op : Byte) : op ∉ definedOpcodes ↔
    (0x03#8 ≤ op ∧ op ≤ 0x0F#8) ∨ (0x16#8 ≤ op ∧ op ≤ 0x1F#8) ∨ (0x23#8 ≤ op ∧ op ≤ 0x2F#8) ∨
    (0x33#8 ≤ op ∧ op ≤ 0x3E#8) ∨ 0x40#8 ≤ op := by
  simp only [definedOpcodes, List.mem_cons, List.not_mem_nil, BitVec.toNat_eq, BitVec.le_def,
    BitVec.toNat_ofNat, or_false, not_or, Nat.reduceMod, Nat.reducePow]
  omega

/-- The operand byte of an assembled word, 0x00 where the operand is ignored (R79). -/
@[simp] theorem immField_encode (i : Instr) : immField (encode i) = i.operand.getD 0x00#8 :=
  immField_append _ _

/-- Settles O1: a word of the table is its operation on the operand byte, and any other opcode falls through
the table. -/
theorem decodeFollowsOpcodeTable : Obligations.DecodeFollowsOpcodeTable := by
  refine ⟨fun b => ?_, decode_append_of_not_mem,
    fun w => ⟨opField w, immField w, (opField_append_immField w).symm⟩, fun i hi => ?_⟩
  · have table (i : Instr) := decode_opcode_append i b
    exact ⟨table .nop, table .crcInit, table (.crcFeed b), table (.encBegin b), table (.encLenHi b),
      table (.encLenLo b), table (.encData b), table .encAbort, table (.encReply b), table (.decRx b),
      table .decAbort, table (.rplRx b), table (.evtAck b), table (.irqSet b), table .cntClear,
      table .softReset⟩
  · have ignored : ∀ i ∈ [Instr.nop, .crcInit, .encAbort, .decAbort, .cntClear, .softReset],
        i.operand = none := by decide
    rw [immField_encode, ignored i hi, Option.getD_none]

end Sys2Proof

/-! ## Illegal words (30_encoding.md R77, 43_control.md R166) -/

namespace Sys2Proof.Machine

/-- Every illegal word does the same: it raises `ILLEGAL_OP` (R166). -/
theorem execInput_of_illegal (w : OpWord) (op : Byte) (s : State) (h : decode w = .illegal op) :
    execInput (.word w) s = .next (raise .illegalOp s) := by
  simp only [execInput, h, execDecoded, execIllegal]

/-- The numbers below 256 whose bytes are on a list without repetitions are that list's numbers. -/
theorem filter_range_ofNat_mem_perm (l : List Byte) (hl : l.Nodup) :
    ((List.range 256).filter fun n => decide (BitVec.ofNat 8 n ∈ l)).Perm (l.map BitVec.toNat) := by
  have hmap : (l.map BitVec.toNat).Nodup := hl.map fun _ _ => BitVec.eq_of_toNat_eq
  refine (List.perm_ext_iff_of_nodup (List.nodup_range.filter _) hmap).mpr fun n => ?_
  simp only [List.mem_filter, List.mem_range, decide_eq_true_eq, List.mem_map]
  constructor
  · rintro ⟨hn, hmem⟩
    exact ⟨_, hmem, Nat.mod_eq_of_lt hn⟩
  · rintro ⟨op, hmem, rfl⟩
    exact ⟨op.isLt, by rwa [BitVec.ofNat_toNat, BitVec.setWidth_eq]⟩

/-- A list of bytes without repetitions leaves the rest of the 256 bytes out. -/
theorem countP_range_ofNat_not_mem (l : List Byte) (hl : l.Nodup) :
    (List.range 256).countP (fun n => decide (BitVec.ofNat 8 n ∉ l)) = 256 - l.length := by
  have hin : (List.range 256).countP (fun n => decide (BitVec.ofNat 8 n ∈ l)) = l.length := by
    rw [List.countP_eq_length_filter, (filter_range_ofNat_mem_perm l hl).length_eq, List.length_map]
  have hsplit := List.length_eq_countP_add_countP (l := List.range 256)
    (fun n => decide (BitVec.ofNat 8 n ∈ l))
  simp only [List.length_range, hin, decide_eq_true_eq] at hsplit
  omega

/-- All but the table's 16 opcode bytes are illegal (R77). -/
theorem countP_illegal_opcodes : (List.range 256).countP (fun n =>
    decide (decode (BitVec.ofNat 8 n ++ 0x00#8) = .illegal (BitVec.ofNat 8 n))) = 240 := by
  simp only [decode_append_eq_illegal_iff]
  exact countP_range_ofNat_not_mem definedOpcodes (by decide)

/-- Settles O2: an opcode is illegal when it lies in a gap of the table, and an illegal word only raises
`ILLEGAL_OP`. -/
theorem illegalWordsOnlyRaiseIllegalOp : Obligations.IllegalWordsOnlyRaiseIllegalOp := by
  refine ⟨fun op b => ?_, countP_illegal_opcodes, fun op b s h => execInput_of_illegal _ op s h⟩
  rw [decode_append_eq_illegal_iff, not_mem_definedOpcodes_iff]

end Sys2Proof.Machine

/-! ## The CRC step is linear over XOR (40_crc.md R100, R107) -/

namespace Sys2Proof.Machine

theorem joinBytes_xor (h l h' l' : Byte) :
    joinBytes (h ^^^ h') (l ^^^ l') = joinBytes h l ^^^ joinBytes h' l' :=
  BitVec.xor_append.symm

theorem withHigh_xor (b b' : Byte) : withHigh (b ^^^ b') = withHigh b ^^^ withHigh b' :=
  joinBytes_xor b 0x00#8 b' 0x00#8

theorem joinBytes_eq_withHigh_xor (h l : Byte) : joinBytes h l = withHigh h ^^^ joinBytes 0x00#8 l := by
  simpa [withHigh] using joinBytes_xor h 0x00#8 0x00#8 l

/-- Shifting the low byte to the top leaves it alone there, whatever the high byte was. -/
theorem joinBytes_shiftLeft_eight (h l : Byte) : joinBytes h l <<< 8 = withHigh l := by
  apply BitVec.eq_of_getLsbD_eq
  intro i hi
  rw [withHigh, joinBytes, joinBytes, BitVec.getLsbD_shiftLeft]
  erw [BitVec.getLsbD_append, BitVec.getLsbD_append]
  by_cases hlow : i < 8
  · simp [hlow]
  · simp [hlow, hi, show i - 8 < 8 by omega]

theorem crcShift_of_top_clear (v : Half) (hv : v.getLsbD 15 = false) : crcShift v = v <<< 1 := by
  simp only [crcShift, hv, Bool.false_eq_true, if_false]

theorem crcShift_of_top_set (v : Half) (hv : v.getLsbD 15 = true) :
    crcShift v = (v <<< 1) ^^^ crcPoly :=
  if_pos hv

/-- The polynomial goes in once for each of the two top bits, and twice is not at all. -/
theorem crcShift_xor (v v' : Half) : crcShift (v ^^^ v') = crcShift v ^^^ crcShift v' := by
  have htop : (v ^^^ v').getLsbD 15 = (v.getLsbD 15 ^^ v'.getLsbD 15) := BitVec.getLsbD_xor
  cases hv : v.getLsbD 15 <;> cases hv' : v'.getLsbD 15 <;> rw [hv, hv'] at htop
  · rw [crcShift_of_top_clear _ htop, crcShift_of_top_clear v hv, crcShift_of_top_clear v' hv',
      BitVec.shiftLeft_xor_distrib]
  · rw [crcShift_of_top_set _ htop, crcShift_of_top_clear v hv, crcShift_of_top_set v' hv',
      BitVec.shiftLeft_xor_distrib, BitVec.xor_assoc]
  · rw [crcShift_of_top_set _ htop, crcShift_of_top_set v hv, crcShift_of_top_clear v' hv',
      BitVec.shiftLeft_xor_distrib]
    ac_rfl
  · have hcancel : crcPoly ^^^ crcPoly = 0#16 := BitVec.xor_self
    rw [crcShift_of_top_clear _ htop, crcShift_of_top_set v hv, crcShift_of_top_set v' hv',
      BitVec.shiftLeft_xor_distrib]
    calc v <<< 1 ^^^ v' <<< 1 = v <<< 1 ^^^ v' <<< 1 ^^^ (crcPoly ^^^ crcPoly) := by
          rw [hcancel, BitVec.xor_zero]
      _ = v <<< 1 ^^^ crcPoly ^^^ (v' <<< 1 ^^^ crcPoly) := by ac_rfl

theorem crcShift_iterate_xor (n : Nat) (v v' : Half) :
    crcShift^[n] (v ^^^ v') = crcShift^[n] v ^^^ crcShift^[n] v' := by
  induction n generalizing v v' with
  | zero => rfl
  | succ n ih => simp only [Function.iterate_succ_apply, crcShift_xor, ih]

/-- While only zeros are shifted out, the polynomial does not come in. -/
theorem crcShift_iterate_of_lt (n : Nat) (v : Half) (hv : v.toNat * 2 ^ n < 2 ^ 16) :
    crcShift^[n] v = v <<< n := by
  induction n generalizing v with
  | zero => simp
  | succ n ih =>
    have hle : v.toNat * 2 ≤ v.toNat * 2 * 2 ^ n := Nat.le_mul_of_pos_right _ (Nat.two_pow_pos n)
    have hassoc : v.toNat * 2 ^ (n + 1) = v.toNat * 2 * 2 ^ n := by ring
    have htop : v.getLsbD 15 = false := Nat.testBit_lt_two_pow (by omega)
    have hnat : (v <<< 1).toNat = v.toNat * 2 := by
      rw [BitVec.toNat_shiftLeft, Nat.shiftLeft_eq, pow_one, Nat.mod_eq_of_lt (by omega)]
    rw [Function.iterate_succ_apply, crcShift_of_top_clear v htop, ih _ (by rw [hnat]; omega),
      ← BitVec.shiftLeft_add, Nat.add_comm]

/-- Eight shifts move a low byte to the top. -/
theorem crcShift_iterate_low (l : Byte) : crcShift^[8] (joinBytes 0x00#8 l) = withHigh l := by
  have hnat : (joinBytes 0x00#8 l).toNat = l.toNat := by
    rw [joinBytes]
    erw [BitVec.toNat_append]
    simp
  rw [crcShift_iterate_of_lt 8 _ (by have := l.isLt; omega), joinBytes_shiftLeft_eight]

/-- The bit shifted out comes back as the polynomial's lowest bit. -/
theorem crcShift_getLsbD_zero (v : Half) : (crcShift v).getLsbD 0 = v.getLsbD 15 := by
  cases hv : v.getLsbD 15
  · rw [crcShift_of_top_clear v hv]
    simp
  · rw [crcShift_of_top_set v hv]
    simp [crcPoly]

/-- The shift loses nothing. -/
theorem crcShift_eq_zero_iff (v : Half) : crcShift v = 0x0000#16 ↔ v = 0x0000#16 := by
  refine ⟨fun h => ?_, fun h => by rw [h]; rfl⟩
  have htop : v.getLsbD 15 = false := by
    rw [← crcShift_getLsbD_zero, h]
    rfl
  rw [crcShift_of_top_clear v htop] at h
  apply BitVec.eq_of_getLsbD_eq
  intro i hi
  by_cases hi15 : i = 15
  · rw [hi15, htop]
    rfl
  · have hbit : (v <<< 1).getLsbD (i + 1) = v.getLsbD i := by
      rw [BitVec.getLsbD_shiftLeft]
      simp [show i + 1 < 16 by omega, -BitVec.getLsbD_eq_getElem]
    rw [← hbit, h, BitVec.getLsbD_zero, BitVec.getLsbD_zero]

theorem crcShift_iterate_eq_zero_iff (n : Nat) (v : Half) :
    crcShift^[n] v = 0x0000#16 ↔ v = 0x0000#16 := by
  induction n generalizing v with
  | zero => rfl
  | succ n ih => rw [Function.iterate_succ_apply, ih, crcShift_eq_zero_iff]

/-- The byte meets the register's high byte only, and the low byte only moves up. -/
theorem crc16Step_joinBytes (h l b : Byte) :
    crc16Step (joinBytes h l) b = withHigh l ^^^ crcTable (h ^^^ b) := by
  calc crcShift^[8] (joinBytes h l ^^^ withHigh b)
      = crcShift^[8] (joinBytes 0x00#8 l ^^^ withHigh (h ^^^ b)) := by
        rw [joinBytes_eq_withHigh_xor, withHigh_xor, BitVec.xor_comm (withHigh h), BitVec.xor_assoc]
    _ = withHigh l ^^^ crcShift^[8] (withHigh (h ^^^ b)) := by
        rw [crcShift_iterate_xor, crcShift_iterate_low]
    _ = withHigh l ^^^ crcTable (h ^^^ b) := by
        rw [crcTable, crc16Step, BitVec.zero_xor]

theorem crc16Step_eq_byTable (c : Half) (b : Byte) : crc16Step c b = crc16StepByTable c b := by
  rw [crc16StepByTable, ← joinBytes_hi_lo c, joinBytes_shiftLeft_eight, hiByte_joinBytes,
    crc16Step_joinBytes]

/-- Two bytes, high byte first, are one 16-bit word XORed in and shifted through. -/
theorem crc16Step_crc16Step (c : Half) (h l : Byte) :
    crc16Step (crc16Step c h) l = crcShift^[16] (c ^^^ joinBytes h l) := by
  calc crcShift^[8] (crcShift^[8] (c ^^^ withHigh h) ^^^ withHigh l)
      = crcShift^[8] (crcShift^[8] (c ^^^ withHigh h ^^^ joinBytes 0x00#8 l)) := by
        rw [crcShift_iterate_xor 8 (c ^^^ withHigh h), crcShift_iterate_low]
    _ = crcShift^[16] (c ^^^ joinBytes h l) := by
        rw [BitVec.xor_assoc, ← joinBytes_eq_withHigh_xor, ← Function.iterate_add_apply]

/-- Settles O12: the model's shift and constants are R100's, written out. -/
theorem crcStepShiftsAndXors : Obligations.CrcStepShiftsAndXors :=
  fun _ _ => rfl

/-- Settles O18: the step is linear, and its table is the step from 0. -/
theorem crcTableFormEqualsStep : Obligations.CrcTableFormEqualsStep :=
  ⟨crc16Step_eq_byTable, fun c b => (crc16Step_eq_byTable c b).symm, fun _ => rfl,
    by decide, by decide, by decide, by decide⟩

end Sys2Proof.Machine

/-! ## The reference vectors (40_crc.md R106, 95_test_vectors.md section 2.1) -/

namespace Sys2Proof.Machine

/-- From `c` each byte leaves the register written beside it, as 95_test_vectors.md lists the running
register. -/
def IsCrcRun (c : Half) : List (Byte × Half) → Prop
  | [] => True
  | (b, r) :: run => crc16Step c b = r ∧ IsCrcRun r run

theorem foldl_crc16Step_of_isCrcRun (c : Half) (run : List (Byte × Half)) (h : IsCrcRun c run) :
    (run.map Prod.fst).foldl crc16Step c = (run.map Prod.snd).getLastD c := by
  induction run generalizing c with
  | nil => rfl
  | cons p run ih =>
    obtain ⟨hstep, hrun⟩ := h
    rw [List.map_cons, List.foldl_cons, hstep, ih _ hrun, List.map_cons, List.getLastD_cons]

theorem crc16_of_isCrcRun (run : List (Byte × Half)) (h : IsCrcRun 0xFFFF#16 run) :
    crc16 (run.map Prod.fst) = (run.map Prod.snd).getLastD 0xFFFF#16 := by
  rw [crc16_eq_foldl, foldl_crc16Step_of_isCrcRun _ run h]

/-- Settles O16: the one-byte vectors evaluate directly, the longer ones through the running register. -/
theorem crcReferenceVectors : Obligations.CrcReferenceVectors :=
  ⟨crc16_of_isCrcRun [(0x31#8, 0xC782#16), (0x32#8, 0x3DBA#16), (0x33#8, 0x5BCE#16), (0x34#8, 0x5349#16),
      (0x35#8, 0x4560#16), (0x36#8, 0x2EF4#16), (0x37#8, 0x7718#16), (0x38#8, 0xA12B#16),
      (0x39#8, 0x29B1#16)] ⟨rfl, rfl, rfl, rfl, rfl, rfl, rfl, rfl, rfl, trivial⟩,
    crc16_nil, rfl, rfl, rfl, rfl, rfl,
    crc16_of_isCrcRun [(0x14#8, 0xB345#16), (0x05#8, 0x821D#16), (0x00#8, 0xACCA#16), (0x00#8, 0xBE66#16)]
      ⟨rfl, rfl, rfl, rfl, trivial⟩,
    crc16_of_isCrcRun [(0xFF#8, 0xFF00#16), (0xFF#8, 0x0000#16)] ⟨rfl, rfl, trivial⟩,
    crc16_of_isCrcRun [(0xDE#8, 0xCB43#16), (0xAD#8, 0x4F60#16), (0xBE#8, 0x9F3E#16), (0xEF#8, 0x4097#16)]
      ⟨rfl, rfl, rfl, rfl, trivial⟩⟩

end Sys2Proof.Machine

/-! ## Appending the checksum (40_crc.md R105) -/

namespace Sys2Proof.Machine

theorem crc16_append_pair (d : List Byte) (h l : Byte) :
    crc16 (d ++ [h, l]) = crcShift^[16] (crc16 d ^^^ joinBytes h l) := by
  rw [List.append_cons, crc16_concat, crc16_concat, crc16Step_crc16Step]

theorem crc16_append_pair_eq_zero_iff (d : List Byte) (h l : Byte) :
    crc16 (d ++ [h, l]) = 0x0000#16 ↔ joinBytes h l = crc16 d := by
  rw [crc16_append_pair, crcShift_iterate_eq_zero_iff, BitVec.xor_eq_zero_iff, eq_comm]

/-- Settles O17: the two bytes cancel the register exactly when they equal it, and only a zero register
shifts to zero. -/
theorem crcResidueIsZeroExactlyWhenRight : Obligations.CrcResidueIsZeroExactlyWhenRight :=
  ⟨fun d => (crc16_append_pair_eq_zero_iff d _ _).mpr (joinBytes_hi_lo (crc16 d)),
    crc16_append_pair_eq_zero_iff⟩

end Sys2Proof.Machine

/-! ## The word behind a decoded operation (30_encoding.md R73, R75) -/

namespace Sys2Proof

@[simp] theorem opcode_withOperand (i : Instr) (b : Byte) : (i.withOperand b).opcode = i.opcode := by
  cases i <;> rfl

@[simp] theorem withOperand_withOperand (i : Instr) (b b' : Byte) :
    (i.withOperand b).withOperand b' = i.withOperand b' := by
  cases i <;> rfl

/-- A word decodes to an operation only if it carries that operation's opcode and operand. -/
theorem of_decode_eq_op (w : OpWord) (i : Instr) (h : decode w = .op i) :
    opField w = i.opcode ∧ i.withOperand (immField w) = i := by
  rw [← opField_append_immField w] at h
  by_cases hmem : opField w ∈ definedOpcodes
  · obtain ⟨j, hj⟩ := (mem_definedOpcodes_iff _).mp hmem
    rw [← hj, decode_opcode_append] at h
    cases h
    exact ⟨by rw [opcode_withOperand, hj], withOperand_withOperand j _ _⟩
  · rw [decode_append_of_not_mem _ _ hmem] at h
    cases h

theorem eq_append_of_decode_eq_crcFeed (w : OpWord) (b : Byte) (h : decode w = .op (.crcFeed b)) :
    w = 0x02#8 ++ b := by
  obtain ⟨hop, himm⟩ := of_decode_eq_op w _ h
  have hb : immField w = b := Instr.crcFeed.inj himm
  rw [← opField_append_immField w, hop, hb]
  rfl

end Sys2Proof

/-! ## The standalone CRC unit (40_crc.md R102 to R104) -/

namespace Sys2Proof.Machine

theorem exec_crcInit (s : State) : exec .crcInit s = .next { s with crcVal := 0xFFFF#16 } := rfl

theorem exec_crcFeed (b : Byte) (s : State) :
    exec (.crcFeed b) s = .next { s with crcVal := crc16Step s.crcVal b } := rfl

/-- What each operation leaves in `crc_val`: R24's writers, and nothing from any other. -/
theorem exec_crcVal (i : Instr) (s t : State) (h : exec i s = .next t) :
    t.crcVal = s.crcVal ∨ t.crcVal = 0xFFFF#16 ∨
      ∃ b, i = .crcFeed b ∧ t.crcVal = crc16Step s.crcVal b := by
  cases i with
  | crcInit =>
    rw [exec_crcInit] at h
    cases h
    exact .inr (.inl rfl)
  | crcFeed b =>
    rw [exec_crcFeed] at h
    cases h
    exact .inr (.inr ⟨b, rfl, rfl⟩)
  | softReset =>
    rw [eq_resetBlock_of_reset s t (.inl h)]
    exact .inr (.inl rfl)
  | _ => exact .inl ((exec_keepsUnlisted _ s t h).crcVal (by simp [Instr.opcode]))

/-- Settles O13: CRC.INIT's effect does not depend on `crc_val`, so a second one repeats it. -/
theorem crcInitResult : Obligations.CrcInitResult := by
  refine ⟨decode_opcode_append .crcInit, exec_crcInit, fun s t h => ?_⟩
  rw [exec_crcInit] at h
  cases h
  exact exec_crcInit _

/-- Settles O21: both resets and CRC.INIT give 0xFFFF, CRC.FEED gives a step by its own operand, and
nothing else writes `crc_val`. -/
theorem crcValIsNeverLoaded : Obligations.CrcValIsNeverLoaded := by
  intro x s t h
  cases x with
  | hwReset =>
    rw [eq_resetBlock_of_reset s t (.inr h)]
    exact .inr (.inl rfl)
  | word w =>
    cases hw : decode w with
    | illegal op =>
      rw [execInput_of_illegal w op s hw] at h
      cases h
      exact .inl rfl
    | op i =>
      have hexec : exec i s = .next t := by simpa only [execInput, hw, execDecoded] using h
      rcases exec_crcVal i s t hexec with hsame | hinit | ⟨b, rfl, hstep⟩
      · exact .inl hsame
      · exact .inr (.inl hinit)
      · exact .inr (.inr ⟨b, congrArg _ (eq_append_of_decode_eq_crcFeed w b hw), hstep⟩)

end Sys2Proof.Machine

/-! ## The encoder's operations (41_encoder.md R110 to R116)

Each operation has one equation for each case its rule distinguishes. The sequence error of R110 is the same
for all of them and is said once. -/

namespace Sys2Proof.Machine

/-- In the state that accepts it, an operation behind the sequence check answers what its body gives. -/
theorem next_whenEnc_of_accepted {want : EncState} {body : State → State} {s t : State}
    (hs : s.encState = want) (hbody : body s = t) :
    (.next (whenEnc want body s) : Host.Outcome State Fault Refusal) = .next t :=
  congrArg _ ((if_pos hs).trans hbody)

/-- The encoder state in which R110 accepts an operation; none for an operation without a state check. -/
def acceptedIn (i : Instr) : Option EncState :=
  match i with
  | .encBegin _ => some .idle
  | .encLenHi _ => some .lenHi
  | .encLenLo _ => some .lenLo
  | .encData _ => some .payload
  | .encReply _ => some .idle
  | _ => none

/-- Outside the state that accepts it an operation only raises `SEQ_ERR`, whatever its operand. -/
theorem exec_of_not_accepted {i : Instr} {want : EncState} {s : State} (hi : acceptedIn i = some want)
    (hs : s.encState ≠ want) : exec i s = .next { s with evt := s.evt ||| 0x10#8 } := by
  have hseq (body : State → State) : whenEnc want body s = { s with evt := s.evt ||| 0x10#8 } := if_neg hs
  cases i with
  | encBegin | encLenHi | encLenLo | encData | encReply => cases hi; exact congrArg _ (hseq _)
  | _ => cases hi

/-! ### ENC.BEGIN -/

theorem exec_encBegin_of_command {c : Byte} {s : State} (hs : s.encState = .idle)
    (hc : isCommand c = true) :
    exec (.encBegin c) s = .next { s with
      encCmd := c, encLen := 0x0000#16, encRemain := 0x0000#16, encCrc := 0xFFFF#16, encState := .lenHi } :=
  next_whenEnc_of_accepted hs (if_pos hc)

theorem exec_encBegin_of_not_command {c : Byte} {s : State} (hs : s.encState = .idle)
    (hc : ¬isCommand c = true) :
    exec (.encBegin c) s = .next { s with evt := s.evt ||| 0x20#8 } :=
  next_whenEnc_of_accepted hs (if_neg hc)

/-- Settles O22: in IDLE the command byte decides, and outside it the operation is rejected. -/
theorem encBeginResult : Obligations.EncBeginResult :=
  ⟨fun c => decode_opcode_append (.encBegin c) c,
    fun c _ hs hc => exec_encBegin_of_command hs ((isCommand_iff c).mpr hc),
    fun c _ hs hc => exec_encBegin_of_not_command hs (mt (isCommand_iff c).mp hc),
    fun _ _ hs => exec_of_not_accepted rfl hs⟩

/-! ### ENC.LENHI -/

theorem exec_encLenHi_of_accepted (h : Byte) {s : State} (hs : s.encState = .lenHi) :
    exec (.encLenHi h) s = .next { s with encLen := h ++ 0x00#8, encState := .lenLo } :=
  next_whenEnc_of_accepted hs rfl

/-- Settles O23: in LEN_HI the byte is stored whatever it is, and outside it the operation is rejected. -/
theorem encLenHiResult : Obligations.EncLenHiResult :=
  ⟨fun h => decode_opcode_append (.encLenHi h) h, fun h _ hs => exec_encLenHi_of_accepted h hs,
    fun _ _ hs => exec_of_not_accepted rfl hs⟩

/-! ### ENC.LENLO -/

theorem emitHeader_spec (l : Byte) (s : State) :
    emitHeader l s = { s with
      encLen := setLow s.encLen l
      tx := s.tx ++ frameHeader s.encCmd (setLow s.encLen l) } := rfl

/-- With a payload to come, the header goes out and the whole length remains. -/
theorem exec_encLenLo_of_ne_zero {l : Byte} {s : State} (hs : s.encState = .lenLo)
    (hn : setLow s.encLen l ≠ 0x0000#16) :
    exec (.encLenLo l) s = .next { s with
      encLen := setLow s.encLen l, encRemain := setLow s.encLen l, encState := .payload
      tx := s.tx ++ frameHeader s.encCmd (setLow s.encLen l) } :=
  next_whenEnc_of_accepted hs (if_neg hn)

/-- With no payload, the header is followed by the trailer in the same step, and the frame is done. -/
theorem exec_encLenLo_of_eq_zero {l : Byte} {s : State} (hs : s.encState = .lenLo)
    (hn : setLow s.encLen l = 0x0000#16) :
    exec (.encLenLo l) s = .next { s with
      encLen := 0x0000#16, encState := .idle, cntTx := s.cntTx + 1, evt := s.evt ||| 0x04#8
      tx := s.tx ++ (frameHeader s.encCmd 0x0000#16 ++ frameTrailer s.encCrc) } := by
  have hbody : exec (.encLenLo l) s = .next (finishTx (emitHeader l s)) :=
    next_whenEnc_of_accepted hs (if_pos hn)
  rw [hbody, finishTx_spec, emitHeader_spec, hn, List.append_assoc]
  rfl

/-- Settles O24: whether the completed length is 0 decides between the header alone and the whole frame. -/
theorem encLenLoResult : Obligations.EncLenLoResult := by
  refine ⟨fun l => decode_opcode_append (.encLenLo l) l, ?_, ?_, fun _ _ hs => exec_of_not_accepted rfl hs⟩
  · rintro l s n hs rfl hn
    exact exec_encLenLo_of_ne_zero hs hn
  · rintro l s n hs rfl hn
    exact exec_encLenLo_of_eq_zero hs hn

/-! ### ENC.DATA -/

/-- Any count but 1, the unreachable 0 included (its subtraction wraps, R10), leaves the frame open. -/
theorem exec_encData_of_ne_one (b : Byte) {s : State} (hs : s.encState = .payload)
    (hr : s.encRemain ≠ 0x0001#16) :
    exec (.encData b) s = .next { s with
      tx := s.tx ++ [b], encCrc := crc16Step s.encCrc b, encRemain := s.encRemain - 1 } :=
  next_whenEnc_of_accepted hs (if_neg (sub_ne_zero.mpr hr))

/-- The last payload byte is followed by the trailer in the same step, with the CRC that includes it. -/
theorem exec_encData_of_eq_one (b : Byte) {s : State} (hs : s.encState = .payload)
    (hr : s.encRemain = 0x0001#16) :
    exec (.encData b) s = .next { s with
      tx := s.tx ++ b :: frameTrailer (crc16Step s.encCrc b)
      encCrc := crc16Step s.encCrc b, encRemain := 0x0000#16
      cntTx := s.cntTx + 1, evt := s.evt ||| 0x04#8, encState := .idle } := by
  have hlast : s.encRemain - 1 = 0x0000#16 := sub_eq_zero.mpr hr
  have hbody : exec (.encData b) s = .next (finishTx (pushPayload b s)) :=
    next_whenEnc_of_accepted hs (if_pos hlast)
  rw [hbody, finishTx_spec, pushPayload_tx, List.append_assoc, ← hlast]
  rfl

/-- In PAYLOAD the invariant keeps at least one byte remaining, so counting one down does not wrap (R27). -/
theorem EncInv.toNat_encRemain_sub_one {s : State} (hinv : EncInv s) (hs : s.encState = .payload) :
    (s.encRemain - 1).toNat + 1 = s.encRemain.toNat := by
  obtain ⟨hpos, -⟩ := hinv.remain_in_payload hs
  bv_omega

/-- Settles O25: whether one byte remains decides between the byte alone and the byte with the trailer. -/
theorem encDataResult : Obligations.EncDataResult :=
  ⟨fun b => decode_opcode_append (.encData b) b,
    fun b _ hs hr => exec_encData_of_ne_one b hs hr,
    fun b _ hs hr => exec_encData_of_eq_one b hs hr,
    fun _ _ hs => exec_of_not_accepted rfl hs,
    fun _ hinv hs => hinv.toNat_encRemain_sub_one hs⟩

/-! ### ENC.ABORT -/

theorem exec_encAbort_of_idle {s : State} (hs : s.encState = .idle) : exec .encAbort s = .next s :=
  congrArg _ (if_pos hs)

theorem exec_encAbort_of_busy {s : State} (hs : s.encState ≠ .idle) :
    exec .encAbort s = .next { s with encState := .idle, encRemain := 0x0000#16 } :=
  congrArg _ (if_neg hs)

/-- Settles O26: only whether the encoder is IDLE matters. -/
theorem encAbortResult : Obligations.EncAbortResult :=
  ⟨decode_opcode_append .encAbort, fun _ => exec_encAbort_of_idle, fun _ => exec_encAbort_of_busy⟩

/-! ### ENC.REPLY -/

theorem exec_encReply_of_some {r b : Byte} {s : State} (hs : s.encState = .idle)
    (hr : replyByte r = some b) : exec (.encReply r) s = .next { s with tx := s.tx ++ [b] } :=
  next_whenEnc_of_accepted hs (by rw [hr]; rfl)

theorem exec_encReply_of_none {r : Byte} {s : State} (hs : s.encState = .idle)
    (hr : replyByte r = none) : exec (.encReply r) s = .next { s with evt := s.evt ||| 0x20#8 } :=
  next_whenEnc_of_accepted hs (by rw [hr]; rfl)

theorem replyByte_eq_none {r : Byte} (h0 : r ≠ 0x00#8) (h1 : r ≠ 0x01#8) : replyByte r = none := by
  rcases replyByte_cases r with ⟨h, -⟩ | ⟨h, -⟩ | ⟨-, -, hnone⟩
  · exact absurd h h0
  · exact absurd h h1
  · exact hnone

/-- Settles O27: in IDLE the byte that the select chooses is emitted, or there is none and `CMD_ERR` is
raised; outside it the operation is rejected. -/
theorem encReplyResult : Obligations.EncReplyResult :=
  ⟨fun r => decode_opcode_append (.encReply r) r,
    fun _ hs => exec_encReply_of_some hs rfl,
    fun _ hs => exec_encReply_of_some hs rfl,
    fun _ _ hs h0 h1 => exec_encReply_of_none hs (replyByte_eq_none h0 h1),
    fun _ _ hs => exec_of_not_accepted rfl hs⟩

end Sys2Proof.Machine

/-! ## The decoder's operations (42_decoder.md R130 to R141)

What a byte does in each decoder state has one equation for each case its rule distinguishes; `exec_decRx_in`
turns such an equation into what DEC.RX answers. -/

namespace Sys2Proof.Machine

/-- DEC.RX answers what the decoder's present state makes of the byte (R130). -/
theorem exec_decRx_in {b : Byte} {d : DecState} {s t : State} (hs : s.decState = d)
    (hrx : rxByte b d s = t) : exec (.decRx b) s = .next t := by
  rw [exec_decRx, hs, hrx]

/-! ### Hunting for the preamble -/

theorem rxHunt0_pre0 (s : State) : rxHunt0 0x55#8 s = { s with decState := .hunt1 } := if_pos rfl

theorem rxHunt0_of_ne {b : Byte} (s : State) (hb : b ≠ 0x55#8) :
    rxHunt0 b s = { s with cntDiscard := s.cntDiscard + 1, evt := s.evt ||| 0x08#8 } := if_neg hb

theorem rxHunt1_pre1 (s : State) :
    rxHunt1 0xAA#8 s = { s with
      decState := .cmd, decCmd := 0x00#8, decLen := 0x0000#16, decCount := 0x0000#16
      decCrc := 0xFFFF#16, decCrcRx := 0x0000#16 } := if_pos rfl

/-- The held 0x55 is discarded and the new one is held in its place. -/
theorem rxHunt1_pre0 (s : State) :
    rxHunt1 0x55#8 s = { s with cntDiscard := s.cntDiscard + 1, evt := s.evt ||| 0x08#8 } :=
  (if_neg (by decide)).trans (if_pos rfl)

/-- The held 0x55 and the byte after it are both discarded. -/
theorem rxHunt1_of_ne {b : Byte} (s : State) (h1 : b ≠ 0xAA#8) (h0 : b ≠ 0x55#8) :
    rxHunt1 b s = { s with
      decState := .hunt0, cntDiscard := s.cntDiscard + 2, evt := s.evt ||| 0x08#8 } :=
  (if_neg h1).trans (if_neg h0)

/-- Settles O30: the two preamble bytes and any other byte are the cases of both hunting states. -/
theorem decRxHunting : Obligations.DecRxHunting :=
  ⟨fun b => decode_opcode_append (.decRx b) b,
    fun s hs => exec_decRx_in hs (rxHunt0_pre0 s),
    fun _ s hs hb => exec_decRx_in hs (rxHunt0_of_ne s hb),
    fun s hs => exec_decRx_in hs (rxHunt1_pre1 s),
    fun s hs => exec_decRx_in hs (rxHunt1_pre0 s),
    fun _ s hs h1 h0 => exec_decRx_in hs (rxHunt1_of_ne s h1 h0)⟩

/-! ### The end of a frame -/

theorem frameEnd_ok (s : State) :
    frameEnd .ok s = { s with
      decVerdict := .ok, rxo := s.rxo ++ [.frameEnd .ok s.decCmd s.decLen]
      cntRxOk := s.cntRxOk + 1, evt := s.evt ||| 0x01#8, decState := .hunt0 } := by
  rcases frameEnd_cases .ok s with ⟨-, h⟩ | ⟨hne, -⟩
  · exact h
  · exact absurd rfl hne

theorem frameEnd_of_ne_ok {v : Verdict} (s : State) (hv : v ≠ .ok) :
    frameEnd v s = { s with
      decVerdict := v, rxo := s.rxo ++ [.frameEnd v s.decCmd s.decLen]
      cntRxBad := s.cntRxBad + 1, evt := s.evt ||| 0x02#8, decState := .hunt0 } := by
  rcases frameEnd_cases v s with ⟨hok, -⟩ | ⟨-, h⟩
  · exact absurd hok hv
  · exact h

/-! ### The header -/

theorem rxLenLo_of_limit_lt {b : Byte} {s : State} (hn : s.params.rxMaxLen < setLow s.decLen b) :
    rxLenLo b s = frameEnd .lenErr { s with decLen := setLow s.decLen b } := if_pos hn

theorem rxLenLo_of_eq_zero {b : Byte} {s : State} (hn : setLow s.decLen b ≤ s.params.rxMaxLen)
    (h0 : setLow s.decLen b = 0x0000#16) :
    rxLenLo b s = { s with decLen := setLow s.decLen b, decState := .crcHi } :=
  (if_neg (BitVec.not_lt.mpr hn)).trans (if_pos h0)

theorem rxLenLo_of_ne_zero {b : Byte} {s : State} (hn : setLow s.decLen b ≤ s.params.rxMaxLen)
    (h0 : setLow s.decLen b ≠ 0x0000#16) :
    rxLenLo b s = { s with decLen := setLow s.decLen b, decState := .payload } :=
  (if_neg (BitVec.not_lt.mpr hn)).trans (if_neg h0)

/-- A length within the limit does not end the frame (R136). -/
theorem rxLenLo_decState_ne_hunt0 {b : Byte} {s : State} (hn : setLow s.decLen b ≤ s.params.rxMaxLen) :
    (rxLenLo b s).decState ≠ .hunt0 := by
  rcases rxLenLo_cases b s with ⟨hlt, -⟩ | ⟨-, -, h⟩ | ⟨-, -, h⟩
  · exact absurd hlt (BitVec.not_lt.mpr hn)
  · rw [h]
    exact nofun
  · rw [h]
    exact nofun

/-- Settles O31: the length check's three cases, and the default limit is the largest length there is. -/
theorem decRxHeader : Obligations.DecRxHeader := by
  refine ⟨fun _ _ hs => exec_decRx_in hs rfl, fun _ _ hs => exec_decRx_in hs rfl, ?_, ?_, ?_, ?_⟩
  · rintro b s n hs rfl hn
    exact exec_decRx_in hs ((rxLenLo_of_limit_lt hn).trans (frameEnd_of_ne_ok _ nofun))
  · rintro b s n hs rfl hn h0
    exact exec_decRx_in hs (rxLenLo_of_eq_zero hn h0)
  · rintro b s n hs rfl hn h0
    exact exec_decRx_in hs (rxLenLo_of_ne_zero hn h0)
  · intro b s t hs hmax h
    have hn : setLow s.decLen b ≤ s.params.rxMaxLen := by
      rw [hmax]
      bv_omega
    cases (exec_decRx_in hs rfl).symm.trans h
    exact rxLenLo_decState_ne_hunt0 hn

/-! ### The payload -/

theorem rxPayload_of_ne (b : Byte) {s : State} (hs : s.decState = .payload) (hc : s.decCount + 1 ≠ s.decLen) :
    rxPayload b s = { s with
      rxo := s.rxo ++ [.payload b], decCrc := crc16Step s.decCrc b, decCount := s.decCount + 1 } := by
  rw [rxPayload, if_neg hc, ← hs]

theorem rxPayload_of_eq (b : Byte) {s : State} (hc : s.decCount + 1 = s.decLen) :
    rxPayload b s = { s with
      rxo := s.rxo ++ [.payload b], decCrc := crc16Step s.decCrc b, decCount := s.decCount + 1
      decState := .crcHi } := by
  rw [rxPayload, if_pos hc]

/-- Settles O32: whether the byte is the last one counted decides the next decoder state. -/
theorem decRxPayload : Obligations.DecRxPayload :=
  ⟨fun b _ hs hc => exec_decRx_in hs (rxPayload_of_ne b hs hc),
    fun b _ hs hc => exec_decRx_in hs (rxPayload_of_eq b hc)⟩

/-! ### The checksum and the verdict -/

theorem frameVerdict_of_ne {x crc : Half} (cmd : Byte) (hx : x ≠ crc) : frameVerdict x crc cmd = .crcErr :=
  if_pos hx

theorem frameVerdict_of_not_command {x crc : Half} {cmd : Byte} (hx : x = crc) (hc : ¬isCommand cmd = true) :
    frameVerdict x crc cmd = .cmdErr :=
  (if_neg (not_not.mpr hx)).trans (if_neg hc)

theorem frameVerdict_of_command {x crc : Half} {cmd : Byte} (hx : x = crc) (hc : isCommand cmd = true) :
    frameVerdict x crc cmd = .ok :=
  (if_neg (not_not.mpr hx)).trans (if_pos hc)

/-- In CRC_LO the verdict on the completed checksum ends the frame (R139, R140). -/
theorem rxCrcLo_of_verdict {b : Byte} {s : State} {v : Verdict}
    (hv : frameVerdict (setLow s.decCrcRx b) s.decCrc s.decCmd = v) :
    rxCrcLo b s = frameEnd v { s with decCrcRx := setLow s.decCrcRx b } := by
  rw [rxCrcLo, hv]

/-- Settles O33: the checksum is compared before the command, and the verdict decides how the frame ends. -/
theorem decRxChecksumAndVerdict : Obligations.DecRxChecksumAndVerdict := by
  refine ⟨fun _ _ hs => exec_decRx_in hs rfl, ?_, ?_, ?_⟩
  · rintro b s x hs rfl hx
    exact exec_decRx_in hs ((rxCrcLo_of_verdict (frameVerdict_of_ne _ hx)).trans
      (frameEnd_of_ne_ok _ nofun))
  · rintro b s x hs rfl hx hc
    have hcmd : ¬isCommand s.decCmd = true := mt (isCommand_iff _).mp hc
    exact exec_decRx_in hs ((rxCrcLo_of_verdict (frameVerdict_of_not_command hx hcmd)).trans
      (frameEnd_of_ne_ok _ nofun))
  · rintro b s x hs rfl hx hc
    have hcmd : isCommand s.decCmd = true := (isCommand_iff _).mpr hc
    exact exec_decRx_in hs ((rxCrcLo_of_verdict (frameVerdict_of_command hx hcmd)).trans (frameEnd_ok _))

/-! ### DEC.ABORT -/

theorem abortIn_of_in_frame {d : DecState} (h0 : d ≠ .hunt0) (h1 : d ≠ .hunt1) :
    abortIn d = frameEnd .aborted := by
  cases d with
  | hunt0 => exact absurd rfl h0
  | hunt1 => exact absurd rfl h1
  | _ => rfl

/-- Settles O34: nothing is held in HUNT0, one byte in HUNT1, and in every other state a frame. -/
theorem decAbortResult : Obligations.DecAbortResult := by
  refine ⟨decode_opcode_append .decAbort, fun s hs => ?_, fun s hs => ?_, fun s h0 h1 => ?_⟩
  · rw [exec_decAbort, hs]
    rfl
  · rw [exec_decAbort, hs]
    rfl
  · rw [exec_decAbort, abortIn_of_in_frame h0 h1]
    exact congrArg _ (frameEnd_of_ne_ok s nofun)

end Sys2Proof.Machine

/-! ## The reply classifier (42_decoder.md R150) -/

namespace Sys2Proof.Machine

theorem exec_rplRx (b : Byte) (s : State) :
    exec (.rplRx b) s = .next { s with
      rplByte := b, rplClass := classifyReply b, evt := s.evt ||| 0x80#8 } := rfl

theorem classifyReply_ack : classifyReply 0x06#8 = .ackR := if_pos rfl

theorem classifyReply_nak : classifyReply 0x15#8 = .nakR := (if_neg (by decide)).trans (if_pos rfl)

theorem classifyReply_of_ne {b : Byte} (hack : b ≠ 0x06#8) (hnak : b ≠ 0x15#8) :
    classifyReply b = .garbage :=
  (if_neg hack).trans (if_neg hnak)

/-- Settles O40: the operation is the same in every state, and only the byte's class has cases. -/
theorem rplRxResult : Obligations.RplRxResult := by
  refine ⟨fun b => decode_opcode_append (.rplRx b) b, fun s => ?_, fun s => ?_, fun b s hack hnak => ?_⟩
  · rw [exec_rplRx, classifyReply_ack]
  · rw [exec_rplRx, classifyReply_nak]
  · rw [exec_rplRx, classifyReply_of_ne hack hnak]

end Sys2Proof.Machine

/-! ## The control operations (43_control.md R160 to R164) and the interrupt level they leave (R183)

None of the five distinguishes cases of the state, so each has one equation, from which what its statement
says of the next state follows by the rules on `irq` and `ackEvt`. -/

namespace Sys2Proof.Machine

/-! ### The interrupt level and write-one-to-clear -/

theorem irq_eq_true_iff (s : State) : irq s = true ↔ s.evt &&& s.irqEn ≠ 0x00#8 := bne_iff_ne

theorem irq_eq_false_iff (s : State) : irq s = false ↔ s.evt &&& s.irqEn = 0x00#8 := bne_eq_false_iff_eq

/-- A block with no event pending does not interrupt, whatever is enabled. -/
theorem irq_of_evt_zero {s : State} (h : s.evt = 0x00#8) : irq s = false := by
  rw [irq_eq_false_iff, h]
  exact BitVec.zero_and

theorem ackEvt_getLsbD (evt m : Byte) {k : Nat} (hk : k < 8) :
    (ackEvt evt m).getLsbD k = (evt.getLsbD k && !m.getLsbD k) := by
  simp [ackEvt, hk]

@[simp] theorem ackEvt_zero (evt : Byte) : ackEvt evt 0x00#8 = evt := by
  rw [ackEvt, BitVec.not_zero, BitVec.and_allOnes]

/-! ### NOP and CNT.CLEAR -/

theorem exec_nop (s : State) : exec .nop s = .next s := rfl

theorem exec_cntClear (s : State) : exec .cntClear s = .next { s with
    cntTx := 0x0000#16, cntRxOk := 0x0000#16, cntRxBad := 0x0000#16, cntDiscard := 0x0000#16 } := rfl

/-- Settles O41: NOP ignores its operand and has the one equation. -/
theorem nopResult : Obligations.NopResult :=
  ⟨decode_opcode_append .nop, exec_nop⟩

/-- Settles O44: CNT.CLEAR ignores its operand and has the one equation. -/
theorem cntClearResult : Obligations.CntClearResult :=
  ⟨decode_opcode_append .cntClear, exec_cntClear⟩

/-! ### IRQ.SET -/

theorem exec_irqSet (m : Byte) (s : State) : exec (.irqSet m) s = .next { s with irqEn := m } := rfl

/-- The new mask counts at once, against the events already pending (R161). -/
theorem irq_eq_true_iff_of_irqSet {m : Byte} {s t : State} (h : exec (.irqSet m) s = .next t) :
    irq t = true ↔ s.evt &&& m ≠ 0x00#8 := by
  rw [exec_irqSet] at h
  cases h
  exact irq_eq_true_iff _

/-- Settles O42: the level is the next state's, where the mask is `m` and `evt` is as before. -/
theorem irqSetResult : Obligations.IrqSetResult := by
  refine ⟨fun m => decode_opcode_append (.irqSet m) m, exec_irqSet,
    fun _ _ _ h => irq_eq_true_iff_of_irqSet h, fun s t h => ?_⟩
  rw [← Bool.not_eq_true, irq_eq_true_iff_of_irqSet h, not_not]
  exact BitVec.and_zero

/-! ### EVT.ACK -/

theorem exec_evtAck (m : Byte) (s : State) :
    exec (.evtAck m) s = .next { s with evt := ackEvt s.evt m } := rfl

/-- Settles O43: `evt` is acknowledged bit by bit, and mask 0x00 acknowledges none. -/
theorem evtAckResult : Obligations.EvtAckResult := by
  refine ⟨fun m => decode_opcode_append (.evtAck m) m, exec_evtAck, fun m s t h k hk => ?_, fun s => ?_⟩
  · rw [exec_evtAck] at h
    cases h
    exact ackEvt_getLsbD s.evt m hk
  · rw [exec_evtAck, ackEvt_zero]

/-! ### SOFT.RESET and hardware reset -/

theorem exec_softReset (s : State) : exec .softReset s = .next (resetBlock s) := rfl

theorem execInput_hwReset (s : State) : execInput .hwReset s = .next (resetBlock s) := rfl

/-- Settles O11: both resets answer `resetBlock`, whose fields are written out and whose `evt` is 0x00. -/
theorem softResetResult : Obligations.SoftResetResult := by
  refine ⟨decode_opcode_append .softReset, fun s => ?_, fun s t h => ?_, fun s => ?_⟩
  · rw [exec_softReset, resetBlock_spec]
    rfl
  · rw [eq_resetBlock_of_reset s t (.inl h)]
    exact irq_of_evt_zero (resetBlock_evt s)
  · rw [execInput_hwReset, exec_softReset]

end Sys2Proof.Machine

/-! ## The interrupt level, event by event (60_exceptions.md R183) -/

namespace Sys2Proof.Machine

/-- The level is the OR, over the eight events, of pending and enabled. -/
theorem irq_eq_true_iff_exists_event (s : State) :
    irq s = true ↔ ∃ k < 8, s.evt.getLsbD k = true ∧ s.irqEn.getLsbD k = true := by
  rw [irq_eq_true_iff]
  constructor
  · intro hne
    by_contra hnone
    refine hne (BitVec.eq_of_getLsbD_eq fun k hk => ?_)
    rw [BitVec.getLsbD_and, BitVec.getLsbD_zero, Bool.and_eq_false_imp]
    intro hevt
    exact Bool.eq_false_iff.2 fun hen => hnone ⟨k, hk, hevt, hen⟩
  · rintro ⟨k, -, hevt, hen⟩ hzero
    have hbit : (s.evt &&& s.irqEn).getLsbD k = true := by
      rw [BitVec.getLsbD_and, hevt, hen, Bool.and_self]
    rw [hzero, BitVec.getLsbD_zero] at hbit
    exact Bool.false_ne_true hbit

/-- An event that still interrupts after the acknowledgement was pending and enabled before it, so the mask
covers it, and an acknowledged event is no longer pending (R162). -/
theorem irq_eq_false_of_evtAck {m : Byte} {s t : State} (h : exec (.evtAck m) s = .next t)
    (hcover : ∀ k < 8, s.evt.getLsbD k = true → s.irqEn.getLsbD k = true → m.getLsbD k = true) :
    irq t = false := by
  rw [exec_evtAck] at h
  cases h
  rw [← Bool.not_eq_true, irq_eq_true_iff_exists_event]
  rintro ⟨k, hk, hack, hen⟩
  obtain ⟨hevt, hkept⟩ : s.evt.getLsbD k = true ∧ m.getLsbD k = false := by
    simpa [ackEvt_getLsbD s.evt m hk] using hack
  rw [hcover k hk hevt hen] at hkept
  exact Bool.noConfusion hkept

/-- After IRQ.SET the pending events count under the new mask alone (R161). -/
theorem irq_eq_false_of_irqSet {m : Byte} {s t : State} (h : exec (.irqSet m) s = .next t)
    (hmasked : s.evt &&& m = 0x00#8) : irq t = false := by
  rw [← Bool.not_eq_true, irq_eq_true_iff_of_irqSet h, not_not]
  exact hmasked

/-- Settles O45: the level bit by bit, its reading in IRQ_STAT, and the two operations that make it fall. -/
theorem irqIsEnabledAndPending : Obligations.IrqIsEnabledAndPending :=
  ⟨irq_eq_true_iff_exists_event, readReg_irqStat, fun _ _ _ => irq_eq_false_of_evtAck,
    fun _ _ _ => irq_eq_false_of_irqSet⟩

end Sys2Proof.Machine

/-! ## Encoding and decoding agree (30_encoding.md R73, R75, R79) -/

namespace Sys2Proof

/-- Giving an operation the operand byte it is assembled with changes nothing. -/
theorem withOperand_operand (i : Instr) : i.withOperand (i.operand.getD 0x00#8) = i := by
  cases i <;> rfl

theorem decode_encode (i : Instr) : decode (encode i) = .op i := by
  rw [encode, decode_opcode_append, withOperand_operand]

@[simp] theorem opField_encode (i : Instr) : opField (encode i) = i.opcode :=
  opField_append _ _

/-- An operation that uses its operand holds the byte it was given. -/
theorem operand_withOperand (i : Instr) (b : Byte) (h : (i.withOperand b).operand ≠ none) :
    (i.withOperand b).operand = some b := by
  cases i with
  | nop | crcInit | encAbort | decAbort | cntClear | softReset => exact absurd rfl h
  | _ => rfl

/-- Only the ignored operand byte of a word is lost in decoding it. -/
theorem encode_of_decode (w : OpWord) (i : Instr) (h : decode w = .op i) (hi : i.operand ≠ none) :
    w = encode i := by
  obtain ⟨hop, himm⟩ := of_decode_eq_op w i h
  have hoperand : i.operand = some (immField w) := by
    rw [← himm] at hi ⊢
    exact operand_withOperand i _ hi
  rw [encode, hoperand, Option.getD_some, ← hop, opField_append_immField]

/-- Settles O3: a word of the table carries its operation's opcode and operand, and the assembler writes
just those. -/
theorem decodeEncodeRoundTrip : Obligations.DecodeEncodeRoundTrip := by
  intro i _
  refine ⟨decode_encode i, fun w hw => ⟨?_, encode_of_decode w i hw⟩⟩
  obtain ⟨hop, -⟩ := of_decode_eq_op w i hw
  rw [opField_encode, hop]

/-- Settles O4: each sample is its opcode byte beside its operand byte. -/
theorem sampleWordsDecode : Obligations.SampleWordsDecode :=
  ⟨decode_opcode_append (.crcFeed 0) 0x31#8, decode_opcode_append (.encBegin 0) 0x03#8,
    decode_opcode_append (.encLenLo 0) 0x04#8, decode_opcode_append (.decRx 0) 0xAA#8,
    decode_opcode_append (.rplRx 0) 0x41#8, decode_opcode_append (.irqSet 0) 0x04#8,
    decode_opcode_append .softReset 0xAB#8, decode_opcode_append .nop 0xFF#8,
    decode_append_of_not_mem 0x40#8 0x00#8 (by decide)⟩

end Sys2Proof

/-! ## The pseudo-operations' words (30_encoding.md R80) and the sizes of a frame (R221) -/

namespace Sys2Proof.Machine

theorem hiByte_ofNat (n : Nat) : hiByte (BitVec.ofNat 16 n) = BitVec.ofNat 8 (n / 256) := by
  apply BitVec.eq_of_toNat_eq
  simp only [hiByte, BitVec.extractLsb'_toNat, BitVec.toNat_ofNat, Nat.shiftRight_eq_div_pow]
  omega

theorem loByte_ofNat (n : Nat) : loByte (BitVec.ofNat 16 n) = BitVec.ofNat 8 (n % 256) := by
  apply BitVec.eq_of_toNat_eq
  simp only [loByte, BitVec.extractLsb'_toNat, BitVec.toNat_ofNat, Nat.shiftRight_zero]
  omega

/-- Within R80's bounds a pseudo-operation assembles to its operations' words. -/
theorem assembleOp_of_wellFormed {p : Pseudo} (h : p.wellFormed = true) :
    assembleOp (.pseudo p) = some ((expandPseudo p).map encode) := if_pos h

theorem assembleOp_of_not_wellFormed {p : Pseudo} (h : ¬p.wellFormed = true) :
    assembleOp (.pseudo p) = none := if_neg h

/-- A length field as the assembler splits it into operand bytes, the high byte first (R53, R80). -/
theorem map_encode_encLen (n : Nat) : (expandPseudo (.encLen n)).map encode =
    [0x11#8 ++ BitVec.ofNat 8 (n / 256), 0x12#8 ++ BitVec.ofNat 8 (n % 256)] := by
  rw [← hiByte_ofNat, ← loByte_ofNat]
  rfl

/-- A frame's words: the command's, the length's, and one for each payload byte. -/
theorem map_encode_encFrame (c : Byte) (p : List Byte) : (expandPseudo (.encFrame c p)).map encode =
    (0x10#8 ++ c) :: (expandPseudo (.encLen p.length)).map encode ++ p.map (fun b => 0x13#8 ++ b) := by
  simp only [expandPseudo, List.map_append, List.map_map]
  rfl

/-- Settles O5: within the bounds the words are the expansion's, and beyond them there are none. -/
theorem pseudoOperationsExpand : Obligations.PseudoOperationsExpand := by
  refine ⟨fun n hn => ?_, fun c p hp => ?_, fun n hn => ?_, fun c p hp => ?_, rfl, rfl, fun d => ?_,
    fun d => ?_, rfl, rfl⟩
  · rw [assembleOp_of_wellFormed (p := .encLen n) (decide_eq_true hn), map_encode_encLen]
  · rw [assembleOp_of_wellFormed (p := .encFrame c p) (decide_eq_true hp), map_encode_encFrame,
      map_encode_encLen]
  · exact assembleOp_of_not_wellFormed (mt of_decide_eq_true (Nat.not_le.mpr hn))
  · exact assembleOp_of_not_wellFormed (mt of_decide_eq_true (Nat.not_le.mpr hp))
  · rw [assembleOp_of_wellFormed rfl, expandPseudo, List.map_cons, List.map_map]
    rfl
  · rw [assembleOp_of_wellFormed rfl, expandPseudo, List.map_map]
    rfl

/-- Settles O39: a frame is five header bytes and two of checksum round its payload. -/
theorem frameSizesInSteps : Obligations.FrameSizesInSteps := by
  refine ⟨fun c p => ⟨?_, frameBytes_length c p, ?_⟩, fun c b => ⟨?_, ?_⟩⟩
  · simp only [expandPseudo, List.length_append, List.length_map, List.length_cons, List.length_nil]
    omega
  · simp only [expandPseudo, List.length_map, frameBytes_length]
  · rw [frameBytes_length, List.length_replicate]
  · rw [frameBytes_length, List.length_replicate]

/-- Settles O14: CRC.FEED has the one equation, and the two values evaluate. -/
theorem crcFeedResult : Obligations.CrcFeedResult :=
  ⟨fun b => decode_opcode_append (.crcFeed b) b, exec_crcFeed, by decide, by decide⟩

end Sys2Proof.Machine

/-! ## Carrying out inputs one after another (00_scope.md R12, 20_memory.md R62, 60_exceptions.md R182) -/

namespace Sys2Proof.Machine

/-- No operation faults and none is refused (R182). -/
theorem exec_total (i : Instr) (s : State) : ∃ t, exec i s = .next t := by
  cases i <;> exact ⟨_, rfl⟩

theorem execInput_op {w : OpWord} {i : Instr} (s : State) (h : decode w = .op i) :
    execInput (.word w) s = exec i s := by
  simp only [execInput, h, execDecoded]

theorem execInput_total (x : PortInput) (s : State) : ∃ t, execInput x s = .next t := by
  cases x with
  | hwReset => exact ⟨_, execInput_hwReset s⟩
  | word w =>
    cases hw : decode w with
    | op i =>
      obtain ⟨t, ht⟩ := exec_total i s
      exact ⟨t, (execInput_op s hw).trans ht⟩
    | illegal op => exact ⟨_, execInput_of_illegal w op s hw⟩

/-- A step with an input waiting is carrying that input out. -/
theorem step_of_port_cons {s : State} {x : PortInput} {rest : List PortInput}
    (h : s.port = x :: rest) :
    step s = execInput x { s with port := rest } := by
  simp only [step, stepBlock, takeInput, h]

theorem step_of_port_nil {s : State} (h : s.port = []) : step s = .next s := by
  simp only [step, stepBlock, takeInput, h]

/-- Settles O8: whether or not an input waits, what a step carries out answers a next state. -/
theorem stepAlwaysAnswersNext : Obligations.StepAlwaysAnswersNext := by
  refine ⟨fun s => ?_, exec_total⟩
  cases hp : s.port with
  | nil => exact ⟨s, step_of_port_nil hp⟩
  | cons x rest =>
    rw [step_of_port_cons hp]
    exact execInput_total x _

/-- Settles O7: the case of the step with nothing to take. -/
theorem stepHoldsWithoutInput : Obligations.StepHoldsWithoutInput :=
  fun _ h => step_of_port_nil h

/-- Settles O6: the cases of the step with an input to take. -/
theorem stepRunsDecodedOperation : Obligations.StepRunsDecodedOperation := by
  refine ⟨fun s w rest i hp hw _ => ?_, fun s w rest op hp hw => ?_, fun s rest hp => ?_⟩
  · rw [step_of_port_cons hp, execInput_op _ hw]
  · rw [step_of_port_cons hp, execInput_of_illegal w op _ hw, execIllegal]
  · rw [step_of_port_cons hp, execInput]

theorem feed_append (xs ys : List PortInput) (s t : State) (h : feed xs s = .next t) :
    feed (xs ++ ys) s = feed ys t := by
  induction xs generalizing s with
  | nil =>
    cases h
    rfl
  | cons x xs ih =>
    obtain ⟨s', hx⟩ := execInput_total x s
    rw [feed_cons x xs s s' hx] at h
    rw [List.cons_append, feed_cons x (xs ++ ys) s s' hx]
    exact ih s' h

/-- Settles O9: by induction on the first sequence, taking its inputs one at a time. -/
theorem inputsAreTakenInOrder : Obligations.InputsAreTakenInOrder :=
  feed_append

end Sys2Proof.Machine

/-! ## What a datapath operation reads and writes (10_state.md R21, 20_memory.md R63)

An operation of a datapath unit reads the unit's fields and the build's limit alone, and writes the unit's
fields and stream alone, but for the event bits it sets and what it adds to the counters. -/

namespace Sys2Proof.Machine

/-- What is added to each of the four counters (R35). -/
structure Counts where
  tx : Half
  rxOk : Half
  rxBad : Half
  discard : Half

/-- Nothing is counted. -/
def Counts.zero : Counts := ⟨0, 0, 0, 0⟩

/-- `s` with the bits `x` set in `evt` and `d` added to the counters. -/
def record (x : Byte) (d : Counts) (s : State) : State :=
  { s with
    evt := s.evt ||| x
    cntTx := s.cntTx + d.tx
    cntRxOk := s.cntRxOk + d.rxOk
    cntRxBad := s.cntRxBad + d.rxBad
    cntDiscard := s.cntDiscard + d.discard }

theorem record_of_quiet (s : State) : record 0x00#8 .zero s = s := by
  simp [record, Counts.zero]

theorem raise_eq_record (e : Evt) (s : State) : raise e s = record (evtMask e) .zero s := by
  simp [record, Counts.zero, raise_spec]

theorem discardBytes_eq_record (n : Half) (s : State) :
    discardBytes n s = record (evtMask .rxDiscard) ⟨0, 0, 0, n⟩ s := by
  simp [record, discardBytes_spec]

theorem finishTx_eq_record (s : State) :
    finishTx s = record (evtMask .txDone) ⟨1, 0, 0, 0⟩
      { s with tx := s.tx ++ frameTrailer s.encCrc, encState := .idle } := by
  simp [record, finishTx_spec, frameTrailer]

/-- What the end of a frame with a verdict adds to the counters (R130). -/
def verdictCounts (v : Verdict) : Counts := if v = .ok then ⟨0, 1, 0, 0⟩ else ⟨0, 0, 1, 0⟩

theorem frameEnd_eq_record (v : Verdict) (s : State) :
    frameEnd v s = record (evtMask (verdictEvt v)) (verdictCounts v)
      { s with
        decVerdict := v, rxo := s.rxo ++ [.frameEnd v s.decCmd s.decLen], decState := .hunt0 } := by
  rcases frameEnd_cases v s with ⟨rfl, h⟩ | ⟨hv, h⟩
  · simp [h, record, verdictCounts, verdictEvt]
  · simp [h, record, verdictCounts, verdictEvt, hv]

theorem copyUnit_self (u : BlockUnit) (s : State) : copyUnit u s s = s := by
  cases u <;> rfl

theorem copyUnit_copyUnit_left (u : BlockUnit) (r s t : State) :
    copyUnit u (copyUnit u r s) t = copyUnit u r t := by
  cases u <;> rfl

theorem copyUnit_copyUnit_right (u : BlockUnit) (r s t : State) :
    copyUnit u r (copyUnit u s t) = copyUnit u r t := by
  cases u <;> rfl

theorem copyUnit_params (u : BlockUnit) (r s : State) : (copyUnit u r s).params = s.params := by
  cases u <;> rfl

theorem copyUnit_evt (u : BlockUnit) (r s : State) : (copyUnit u r s).evt = s.evt := by
  cases u <;> rfl

theorem copyUnit_record (u : BlockUnit) (x : Byte) (d : Counts) (r s : State) :
    copyUnit u r (record x d s) = record x d (copyUnit u r s) := by
  cases u <;> rfl

/-- Different units have different fields. -/
theorem copyUnit_comm {u v : BlockUnit} (h : u ≠ v) (r s t : State) :
    copyUnit u r (copyUnit v s t) = copyUnit v s (copyUnit u r t) := by
  cases u <;> cases v <;> simp [copyUnit] at h ⊢

theorem record_comm (x y : Byte) (d e : Counts) (s : State) :
    record x d (record y e s) = record y e (record x d s) := by
  simp only [record, State.mk.injEq, true_and, and_true]
  exact ⟨by ac_rfl, by ac_rfl, by ac_rfl, by ac_rfl, by ac_rfl⟩

/-- Whatever the rest of the state holds, `f` does the same to the fields of the unit `u`, sets the same
event bits and counts the same. -/
def WorksWithin (u : BlockUnit) (f : State → State) : Prop :=
  ∀ s : State, ∃ (x : Byte) (d : Counts) (t : State), ∀ r : State, r.params = s.params →
    f (copyUnit u s r) = record x d (copyUnit u t r)

theorem WorksWithin.of_record {u : BlockUnit} {f : State → State} (x : State → Byte)
    (d : State → Counts) (g : State → State) (hf : ∀ s, f s = record (x s) (d s) (g s))
    (hg : ∀ s r, r.params = s.params →
      x (copyUnit u s r) = x s ∧ d (copyUnit u s r) = d s ∧ g (copyUnit u s r) = copyUnit u (g s) r) :
    WorksWithin u f := by
  intro s
  refine ⟨x s, d s, g s, fun r hr => ?_⟩
  obtain ⟨hx, hd, hgr⟩ := hg s r hr
  rw [hf, hx, hd, hgr]

theorem WorksWithin.of_quiet {u : BlockUnit} {f : State → State}
    (hf : ∀ s r, r.params = s.params → f (copyUnit u s r) = copyUnit u (f s) r) : WorksWithin u f :=
  .of_record (fun _ => 0x00#8) (fun _ => .zero) f (fun _ => (record_of_quiet _).symm)
    fun s r hr => ⟨rfl, rfl, hf s r hr⟩

theorem WorksWithin.ite {u : BlockUnit} {f g : State → State} (c : State → Prop) [DecidablePred c]
    (hc : ∀ s r, r.params = s.params → c (copyUnit u s r) = c s) (hf : WorksWithin u f)
    (hg : WorksWithin u g) : WorksWithin u fun s => if c s then f s else g s := by
  intro s
  by_cases h : c s
  · obtain ⟨x, d, t, hft⟩ := hf s
    exact ⟨x, d, t, fun r hr => by simp only [hc s r hr, if_pos h, hft r hr]⟩
  · obtain ⟨x, d, t, hgt⟩ := hg s
    exact ⟨x, d, t, fun r hr => by simp only [hc s r hr, if_neg h, hgt r hr]⟩

theorem raise_worksWithin (u : BlockUnit) (e : Evt) : WorksWithin u (raise e) :=
  .of_record (fun _ => evtMask e) (fun _ => .zero) id (raise_eq_record e) fun _ _ _ => ⟨rfl, rfl, rfl⟩

theorem whenEnc_worksWithin (want : EncState) {body : State → State} (hbody : WorksWithin .enc body) :
    WorksWithin .enc (whenEnc want body) :=
  .ite (fun s => s.encState = want) (fun _ _ _ => rfl) hbody (raise_worksWithin .enc .seqErr)

theorem exec_enc_worksWithin (i : Instr) (hi : unitOf i = .enc) :
    ∃ f, (∀ s, exec i s = .next (f s)) ∧ WorksWithin .enc f := by
  cases i with
  | encBegin c =>
    exact ⟨_, fun _ => rfl, whenEnc_worksWithin .idle
      (.ite (fun _ => isCommand c = true) (fun _ _ _ => rfl) (.of_quiet fun _ _ _ => rfl)
        (raise_worksWithin .enc .cmdErr))⟩
  | encLenHi h => exact ⟨_, fun _ => rfl, whenEnc_worksWithin .lenHi (.of_quiet fun _ _ _ => rfl)⟩
  | encLenLo l =>
    exact ⟨_, fun _ => rfl, whenEnc_worksWithin .lenLo
      (.ite (fun s => setLow s.encLen l = 0x0000#16) (fun _ _ _ => rfl)
        (.of_record _ _ _ (fun s => finishTx_eq_record (emitHeader l s)) fun _ _ _ => ⟨rfl, rfl, rfl⟩)
        (.of_quiet fun _ _ _ => rfl))⟩
  | encData b =>
    exact ⟨_, fun _ => rfl, whenEnc_worksWithin .payload
      (.ite (fun s => s.encRemain - 1 = 0x0000#16) (fun _ _ _ => rfl)
        (.of_record _ _ _ (fun s => finishTx_eq_record (pushPayload b s)) fun _ _ _ => ⟨rfl, rfl, rfl⟩)
        (.of_quiet fun _ _ _ => rfl))⟩
  | encReply r =>
    refine ⟨_, fun _ => rfl, whenEnc_worksWithin .idle ?_⟩
    cases replyByte r with
    | some b => exact .of_quiet fun _ _ _ => rfl
    | none => exact raise_worksWithin .enc .cmdErr
  | encAbort =>
    exact ⟨_, fun _ => rfl, .ite (fun s => s.encState = .idle) (fun _ _ _ => rfl)
      (.of_quiet fun _ _ _ => rfl) (.of_quiet fun _ _ _ => rfl)⟩
  | _ => cases hi

theorem discardBytes_worksWithin (n : Half) : WorksWithin .dec (discardBytes n) :=
  .of_record _ _ id (discardBytes_eq_record n) fun _ _ _ => ⟨rfl, rfl, rfl⟩

theorem frameEnd_worksWithin (v : Verdict) : WorksWithin .dec (frameEnd v) :=
  .of_record _ _ _ (frameEnd_eq_record v) fun _ _ _ => ⟨rfl, rfl, rfl⟩

theorem rxByte_worksWithin (b : Byte) (d : DecState) : WorksWithin .dec (rxByte b d) := by
  cases d with
  | hunt0 =>
    exact .ite (fun _ => b = pre0) (fun _ _ _ => rfl) (.of_quiet fun _ _ _ => rfl)
      (discardBytes_worksWithin 1)
  | hunt1 =>
    exact .ite (fun _ => b = pre1) (fun _ _ _ => rfl) (.of_quiet fun _ _ _ => rfl)
      (.ite (fun _ => b = pre0) (fun _ _ _ => rfl) (discardBytes_worksWithin 1)
        (.of_record _ _ (fun s => { s with decState := .hunt0 })
          (fun s => congrArg (fun t : State => { t with decState := .hunt0 }) (discardBytes_eq_record 2 s))
          fun _ _ _ => ⟨rfl, rfl, rfl⟩))
  | lenLo =>
    have hlimit (s r : State) (hr : r.params = s.params) :
        (r.params.rxMaxLen < setLow s.decLen b) = (s.params.rxMaxLen < setLow s.decLen b) := by rw [hr]
    exact .ite (fun s => s.params.rxMaxLen < setLow s.decLen b) hlimit
      (.of_record _ _ _ (fun s => frameEnd_eq_record .lenErr { s with decLen := setLow s.decLen b })
        fun _ _ _ => ⟨rfl, rfl, rfl⟩)
      (.ite (fun s => setLow s.decLen b = 0x0000#16) (fun _ _ _ => rfl)
        (.of_quiet fun _ _ _ => rfl) (.of_quiet fun _ _ _ => rfl))
  | crcLo => exact .of_record _ _ _ (fun s => frameEnd_eq_record _ _) fun _ _ _ => ⟨rfl, rfl, rfl⟩
  | _ => exact .of_quiet fun _ _ _ => rfl

theorem abortIn_worksWithin (d : DecState) : WorksWithin .dec (abortIn d) := by
  cases d with
  | hunt0 => exact .of_quiet fun _ _ _ => rfl
  | hunt1 =>
    exact .of_record _ _ (fun s => { s with decState := .hunt0 })
      (fun s => congrArg (fun t : State => { t with decState := .hunt0 }) (discardBytes_eq_record 1 s))
      fun _ _ _ => ⟨rfl, rfl, rfl⟩
  | _ => exact frameEnd_worksWithin .aborted

/-- Every datapath operation works within its unit (R21). -/
theorem exec_worksWithin (i : Instr) (hi : unitOf i ≠ .ctl) :
    ∃ f, (∀ s, exec i s = .next (f s)) ∧ WorksWithin (unitOf i) f := by
  cases i with
  | crcInit => exact ⟨_, fun _ => rfl, .of_quiet fun _ _ _ => rfl⟩
  | crcFeed b => exact ⟨_, fun _ => rfl, .of_quiet fun _ _ _ => rfl⟩
  | encBegin | encLenHi | encLenLo | encData | encAbort | encReply => exact exec_enc_worksWithin _ rfl
  | decRx b => exact ⟨_, exec_decRx b, fun s => rxByte_worksWithin b s.decState s⟩
  | decAbort => exact ⟨_, exec_decAbort, fun s => abortIn_worksWithin s.decState s⟩
  | rplRx b =>
    exact ⟨_, fun _ => rfl, .of_record _ _ _ (fun s => raise_eq_record .rplRx _)
      fun _ _ _ => ⟨rfl, rfl, rfl⟩⟩
  | nop | evtAck | irqSet | cntClear | softReset => exact absurd rfl hi

/-- What a datapath operation does from `s`, it does from every state with the unit's fields and the limit
of `s`: other units' fields, `evt` and the counters go unread. -/
theorem exec_eq_record {i : Instr} (hi : unitOf i ≠ .ctl) {s t : State} (h : exec i s = .next t) :
    ∃ (x : Byte) (d : Counts) (t₀ : State), t = record x d (copyUnit (unitOf i) t₀ s) ∧
      ∀ s' : State, s'.params = s.params → copyUnit (unitOf i) s s' = s' →
        exec i s' = .next (record x d (copyUnit (unitOf i) t₀ s')) := by
  obtain ⟨f, hf, hwithin⟩ := exec_worksWithin i hi
  obtain ⟨x, d, t₀, hft⟩ := hwithin s
  have hexec : ∀ s' : State, s'.params = s.params → copyUnit (unitOf i) s s' = s' →
      exec i s' = .next (record x d (copyUnit (unitOf i) t₀ s')) :=
    fun s' hp hs' => by rw [hf, ← hft s' hp, hs']
  exact ⟨x, d, t₀, Host.Outcome.next.inj (h.symm.trans (hexec s rfl (copyUnit_self _ s))), hexec⟩

/-- No operation but SOFT.RESET writes another unit's fields. -/
theorem exec_keeps_unit {i : Instr} {u : BlockUnit} {s t : State} (hu : unitOf i ≠ u)
    (hr : i ≠ .softReset) (h : exec i s = .next t) : copyUnit u s t = t := by
  by_cases hi : unitOf i = .ctl
  · cases i with
    | softReset => exact absurd rfl hr
    | nop | evtAck | irqSet | cntClear =>
      cases h
      cases u <;> rfl
    | _ => cases hi
  · obtain ⟨x, d, t₀, rfl, -⟩ := exec_eq_record hi h
    rw [copyUnit_record, copyUnit_comm hu.symm, copyUnit_self]

/-! ### Operations of different units in either order -/

theorem exec_comm {i j : Instr} (hi : unitOf i ≠ .ctl) (hj : unitOf j ≠ .ctl)
    (hij : unitOf i ≠ unitOf j) {s a b : State} (ha : exec i s = .next a) (hb : exec j s = .next b) :
    ∃ t, exec j a = .next t ∧ exec i b = .next t := by
  have hj_keeps := exec_keeps_unit hij.symm (fun h => hj (congrArg unitOf h)) hb
  have hi_keeps := exec_keeps_unit hij (fun h => hi (congrArg unitOf h)) ha
  have hpa := (exec_keepsUnlisted i s a ha).params
  have hpb := (exec_keepsUnlisted j s b hb).params
  obtain ⟨x, d, a₀, ha', hi_exec⟩ := exec_eq_record hi ha
  obtain ⟨y, e, b₀, hb', hj_exec⟩ := exec_eq_record hj hb
  refine ⟨_, hj_exec a hpa hi_keeps, ?_⟩
  rw [hi_exec b hpb hj_keeps, ha', hb', copyUnit_record, copyUnit_record, copyUnit_comm hij,
    record_comm]

/-- An illegal word's event and a datapath operation do not touch each other. -/
theorem exec_raise_illegal {j : Instr} (hj : unitOf j ≠ .ctl) {s b : State} (hb : exec j s = .next b) :
    exec j (raise .illegalOp s) = .next (raise .illegalOp b) := by
  obtain ⟨y, e, b₀, rfl, hexec⟩ := exec_eq_record hj hb
  have hkeep : copyUnit (unitOf j) s (raise .illegalOp s) = raise .illegalOp s := by
    rw [raise_eq_record, copyUnit_record, copyUnit_self]
  rw [hexec (raise .illegalOp s) rfl hkeep, raise_eq_record, raise_eq_record, copyUnit_record, record_comm]

theorem feed_pair {x y : PortInput} {s a b : State} (hx : execInput x s = .next a)
    (hy : execInput y a = .next b) : feed [x, y] s = .next b := by
  rw [feed_cons x [y] s a hx, feed_cons y [] a b hy, feed_nil]

/-- Settles O50: each operation sees its own unit's fields alone, and setting event bits and counting
commute. -/
theorem datapathOperationsCommute : Obligations.DatapathOperationsCommute := by
  rintro v w s (⟨i, j, hv, hw, hi, hj, hij⟩ | ⟨op, j, hv, hw, hj⟩)
  · obtain ⟨a, ha⟩ := exec_total i s
    obtain ⟨b, hb⟩ := exec_total j s
    obtain ⟨t, hja, hib⟩ := exec_comm hi hj hij ha hb
    exact ⟨t, feed_pair ((execInput_op s hv).trans ha) ((execInput_op a hw).trans hja),
      feed_pair ((execInput_op s hw).trans hb) ((execInput_op b hv).trans hib)⟩
  · obtain ⟨b, hb⟩ := exec_total j s
    exact ⟨raise .illegalOp b,
      feed_pair (execInput_of_illegal v op s hv) ((execInput_op _ hw).trans (exec_raise_illegal hj hb)),
      feed_pair ((execInput_op s hw).trans hb) (execInput_of_illegal v op b hv)⟩

end Sys2Proof.Machine

/-! ## One unit's operations among other inputs (20_memory.md R63, 41_encoder.md R117, 42_decoder.md R144)

A sequence of inputs without a reset leaves a unit as that unit's operations alone would leave it. -/

namespace Sys2Proof.Machine

/-- The counters that the operations of a unit add to (R43). -/
def unitCounters (u : BlockUnit) (s : State) : List Half :=
  match u with
  | .enc => [s.cntTx]
  | .dec => [s.cntRxOk, s.cntRxBad, s.cntDiscard]
  | _ => []

/-- `s` holds in the unit `u` what `r` holds there, in the unit's counters too if `counted`, and, if
`unacked`, every event bit of `r`. -/
structure Follows (u : BlockUnit) (counted unacked : Prop) (r s : State) : Prop where
  unit : copyUnit u r s = s
  params : s.params = r.params
  counters : counted → unitCounters u s = unitCounters u r
  evt : unacked → ∀ k, r.evt.getLsbD k = true → s.evt.getLsbD k = true

section

variable {u : BlockUnit} {counted unacked : Prop} {r s : State}

theorem Follows.refl (u : BlockUnit) (counted unacked : Prop) (s : State) : Follows u counted unacked s s :=
  ⟨copyUnit_self u s, rfl, fun _ => rfl, fun _ _ h => h⟩

theorem copyUnit_record_left (x : Byte) (d : Counts) (s t : State) :
    copyUnit u (record x d s) t = copyUnit u s t := by
  cases u <;> rfl

/-- Adding the same to the counters of two states keeps them equal. -/
theorem unitCounters_record (x : Byte) (d : Counts) (t : State)
    (h : unitCounters u s = unitCounters u r) :
    unitCounters u (record x d (copyUnit u t s)) = unitCounters u (record x d (copyUnit u t r)) := by
  cases u <;> simp_all [unitCounters, record, copyUnit]

/-- An operation of the unit, carried out in both states. -/
theorem Follows.own (hf : Follows u counted unacked r s) (hu : u ≠ .ctl) {i : Instr} (hi : unitOf i = u)
    {r' : State} (h : exec i r = .next r') :
    ∃ s', exec i s = .next s' ∧ Follows u counted unacked r' s' := by
  subst hi
  obtain ⟨x, d, t, rfl, hexec⟩ := exec_eq_record hu h
  refine ⟨_, hexec s hf.params hf.unit, ⟨?_, ?_, fun hc => ?_, fun ha k hk => ?_⟩⟩
  · rw [copyUnit_record, copyUnit_record_left, copyUnit_copyUnit_right, copyUnit_copyUnit_left]
  · simpa only [record, copyUnit_params] using hf.params
  · exact unitCounters_record x d t (hf.counters hc)
  · simp only [record, copyUnit_evt, BitVec.getLsbD_or, Bool.or_eq_true] at hk ⊢
    exact hk.imp_left (hf.evt ha k)

/-- Apart from CNT.CLEAR and SOFT.RESET only the unit's own operations write its counters (R43). -/
theorem exec_keeps_counters {i : Instr} (hi : unitOf i ≠ u) (hreset : i ≠ .softReset)
    (hclear : i ≠ .cntClear) {t : State} (h : exec i s = .next t) :
    unitCounters u t = unitCounters u s := by
  have hkeeps := exec_keepsUnlisted i s t h
  cases u with
  | enc =>
    have htx : t.cntTx = s.cntTx := hkeeps.cntTx (by cases i <;> simp_all [Instr.opcode, unitOf])
    rw [unitCounters, unitCounters, htx]
  | dec =>
    obtain ⟨hok, hbad, hdiscard⟩ :=
      hkeeps.rxCounters (by cases i <;> simp_all [Instr.opcode, unitOf])
    rw [unitCounters, unitCounters, hok, hbad, hdiscard]
  | _ => rfl

theorem getLsbD_of_and_not_eq_zero {a b : Byte} (h : a &&& ~~~b = 0x00#8) {k : Nat}
    (hk : a.getLsbD k = true) : b.getLsbD k = true := by
  have hbit := congrArg (fun v : Byte => v.getLsbD k) h
  simpa [hk, BitVec.lt_of_getLsbD hk] using hbit

/-- Apart from EVT.ACK and SOFT.RESET no operation clears an event bit (R181). -/
theorem exec_keeps_evt {i : Instr} (hreset : i ≠ .softReset) (hack : isEvtAck i = false) {t : State}
    (h : exec i s = .next t) {k : Nat} (hk : s.evt.getLsbD k = true) : t.evt.getLsbD k = true := by
  refine getLsbD_of_and_not_eq_zero (evt_kept i s t h ?_) hk
  cases i <;> simp_all [Instr.opcode, isEvtAck]

/-- Any other operation but those the flags exclude, carried out in `s` alone. -/
theorem Follows.other (hf : Follows u counted unacked r s) {i : Instr} (hi : unitOf i ≠ u)
    (hreset : i ≠ .softReset) (hclear : counted → i ≠ .cntClear) (hack : unacked → isEvtAck i = false)
    {s' : State} (h : exec i s = .next s') : Follows u counted unacked r s' := by
  refine ⟨?_, (exec_keepsUnlisted i s s' h).params.trans hf.params, fun hc => ?_, fun ha k hk => ?_⟩
  · have hkeep := exec_keeps_unit hi hreset h
    rwa [← hf.unit, copyUnit_copyUnit_left] at hkeep
  · exact (exec_keeps_counters hi hreset (hclear hc) h).trans (hf.counters hc)
  · exact exec_keeps_evt hreset (hack ha) h (hf.evt ha k hk)

/-- An illegal word, carried out in `s` alone. -/
theorem Follows.illegal (hf : Follows u counted unacked r s) :
    Follows u counted unacked r (raise .illegalOp s) := by
  refine ⟨?_, hf.params, fun hc => ?_, fun ha k hk => ?_⟩
  · rw [raise_eq_record, copyUnit_record, hf.unit]
  · exact Eq.trans (by cases u <;> rfl) (hf.counters hc)
  · rw [raise_evt, setEvt, BitVec.getLsbD_or, hf.evt ha k hk, Bool.true_or]

end

theorem inputOp_of_op {w : OpWord} {i : Instr} (h : decode w = .op i) : inputOp (.word w) = some i := by
  simp only [inputOp, h]

theorem inputOp_of_illegal {w : OpWord} {op : Byte} (h : decode w = .illegal op) :
    inputOp (.word w) = none := by
  simp only [inputOp, h]

theorem opsOf_cons_own {u : BlockUnit} {x : PortInput} {i : Instr} (xs : List PortInput)
    (hx : inputOp x = some i) (hi : unitOf i = u) : opsOf u (x :: xs) = i :: opsOf u xs := by
  simp [opsOf, hx, hi]

theorem opsOf_cons_other {u : BlockUnit} {x : PortInput} {i : Instr} (xs : List PortInput)
    (hx : inputOp x = some i) (hi : unitOf i ≠ u) : opsOf u (x :: xs) = opsOf u xs := by
  simp [opsOf, hx, hi]

theorem opsOf_cons_none {u : BlockUnit} {x : PortInput} (xs : List PortInput) (hx : inputOp x = none) :
    opsOf u (x :: xs) = opsOf u xs := by
  simp [opsOf, hx]

/-- The word that the assembler writes for an operation carries that operation out. -/
theorem feed_asInputs_cons {i : Instr} {s t : State} (is : List Instr) (h : exec i s = .next t) :
    feed (asInputs (i :: is)) s = feed (asInputs is) t :=
  feed_cons _ _ s t ((execInput_op s (decode_encode i)).trans h)

theorem feed_asInputs_append {is : List Instr} {s t : State} (js : List Instr)
    (h : feed (asInputs is) s = .next t) : feed (asInputs (is ++ js)) s = feed (asInputs js) t := by
  rw [asInputs, List.map_append]
  exact feed_append _ _ s t h

/-- A sequence without a reset leaves the unit as its operations alone do, its counters too where no
CNT.CLEAR comes between, and the event bits set where no EVT.ACK does. -/
theorem feed_follows {u : BlockUnit} (hu : u ≠ .ctl) {counted unacked : Prop} {xs : List PortInput}
    {r r' s : State} (hreset : noReset xs) (hclear : counted → noCntClear xs)
    (hack : unacked → noEvtAck xs) (hrs : Follows u counted unacked r s)
    (hrun : feed (asInputs (opsOf u xs)) r = .next r') :
    ∃ t, feed xs s = .next t ∧ Follows u counted unacked r' t := by
  induction xs generalizing r s with
  | nil =>
    cases hrun
    exact ⟨s, feed_nil s, hrs⟩
  | cons x xs ih =>
    obtain ⟨⟨hhw, hsoft⟩, hrest⟩ := List.forall_mem_cons.mp hreset
    simp only [List.forall_mem_cons, imp_and] at hclear hack
    obtain ⟨hxclear, hclear⟩ := hclear
    obtain ⟨hxack, hack⟩ := hack
    cases x with
    | hwReset => exact absurd rfl hhw
    | word w =>
      cases hw : decode w with
      | illegal op =>
        rw [feed_cons _ xs s _ (execInput_of_illegal w op s hw)]
        rw [opsOf_cons_none xs (inputOp_of_illegal hw)] at hrun
        exact ih hrest hclear hack hrs.illegal hrun
      | op i =>
        have hop := inputOp_of_op hw
        by_cases hi : unitOf i = u
        · obtain ⟨r₁, hr₁⟩ := exec_total i r
          obtain ⟨s₁, hs₁, hrs₁⟩ := hrs.own hu hi hr₁
          rw [feed_cons _ xs s s₁ ((execInput_op s hw).trans hs₁)]
          rw [opsOf_cons_own xs hop hi, feed_asInputs_cons _ hr₁] at hrun
          exact ih hrest hclear hack hrs₁ hrun
        · obtain ⟨s₁, hs₁⟩ := exec_total i s
          rw [feed_cons _ xs s s₁ ((execInput_op s hw).trans hs₁)]
          rw [opsOf_cons_other xs hop hi] at hrun
          have hnreset : i ≠ .softReset := fun h => hsoft (h ▸ hop)
          have hnclear : counted → i ≠ .cntClear := fun hc h => hxclear hc (h ▸ hop)
          have hnack : unacked → isEvtAck i = false := fun ha => by simpa [hop] using hxack ha
          exact ih hrest hclear hack (hrs.other hi hnreset hnclear hnack hs₁) hrun

/-- From one state, and with the flags read off the sequence. -/
theorem feed_unit {u : BlockUnit} (hu : u ≠ .ctl) {xs : List PortInput} {s r : State} {is : List Instr}
    (hops : opsOf u xs = is) (hreset : noReset xs) (hrun : feed (asInputs is) s = .next r) :
    ∃ t, feed xs s = .next t ∧ Follows u (noCntClear xs) (noEvtAck xs) r t :=
  feed_follows hu hreset id id (.refl u _ _ s) (hops ▸ hrun)

end Sys2Proof.Machine

/-! ## The CRC of a block fed among other inputs (40_crc.md R101 to R103) -/

namespace Sys2Proof.Machine

theorem feed_crcFeed (d : List Byte) (s : State) :
    feed (asInputs (d.map .crcFeed)) s = .next { s with crcVal := d.foldl crc16Step s.crcVal } := by
  induction d generalizing s with
  | nil => rfl
  | cons b d ih =>
    rw [List.map_cons, feed_asInputs_cons _ (exec_crcFeed b s), ih, List.foldl_cons]

/-- Settles O15: CRC.INIT and the fold of the step, whatever comes between. -/
theorem crcBlockComputesCrc16 : Obligations.CrcBlockComputesCrc16 := by
  refine ⟨crc16_eq_foldl, fun d xs s hops hreset => ?_⟩
  have hrun : feed (asInputs (.crcInit :: d.map .crcFeed)) s = .next { s with crcVal := crc16 d } := by
    rw [feed_asInputs_cons _ (exec_crcInit s), feed_crcFeed, crc16_eq_foldl]
  obtain ⟨t, hfeed, hfollows⟩ := feed_unit (u := .crc) nofun hops hreset hrun
  exact ⟨t, hfeed, (congrArg State.crcVal hfollows.unit).symm⟩

end Sys2Proof.Machine

/-! ## Properties that every step keeps -/

namespace Sys2Proof.Machine

/-- What holds of every operation and of an illegal word's event, without speaking of the port that the
input came from, holds of every step: hardware reset is SOFT.RESET's effect (R200), and with nothing waiting
the state is held (R195). -/
theorem step_rule {P : State → State → Prop} (hhold : ∀ s, P s s)
    (hport : ∀ (s t : State) (rest : List PortInput), P { s with port := rest } t → P s t)
    (hexec : ∀ (i : Instr) (s t : State), exec i s = .next t → P s t)
    (hillegal : ∀ s, P s (raise .illegalOp s)) {s t : State} (h : step s = .next t) : P s t := by
  rcases step_cases s with ⟨-, hs⟩ | ⟨rest, -, hs⟩ | ⟨w, i, rest, -, -, hs⟩ | ⟨w, op, rest, -, -, hs⟩ <;>
    rw [hs] at h
  · cases h
    exact hhold s
  · exact hport s t rest (hexec .softReset _ t h)
  · exact hport s t rest (hexec i _ t h)
  · cases h
    exact hport s _ rest (hillegal _)

/-- A property that does not speak of the port is kept by every step when operations and illegal words
keep it. -/
theorem step_keeps {Inv : State → Prop}
    (hport : ∀ (s : State) (rest : List PortInput), Inv s → Inv { s with port := rest })
    (hexec : ∀ (i : Instr) (s t : State), Inv s → exec i s = .next t → Inv t)
    (hillegal : ∀ s : State, Inv s → Inv (raise .illegalOp s)) {s t : State} (hs : Inv s)
    (h : step s = .next t) : Inv t :=
  step_rule (P := fun s t => Inv s → Inv t) (fun _ hs => hs)
    (fun s _ rest hkeep hs => hkeep (hport s rest hs)) (fun i s t h hs => hexec i s t hs h) hillegal h hs

end Sys2Proof.Machine

/-! ## The encoder's invariant (10_state.md R25, R27) -/

namespace Sys2Proof.Machine

/-- The invariant speaks of the encoder's fields and stream alone. -/
theorem EncInv.of_unit_kept {s t : State} (hs : EncInv s) (h : copyUnit .enc s t = t) : EncInv t := by
  rw [← h]
  exact ⟨hs.remain_in_payload, hs.remain_elsewhere, hs.command, hs.crc_before_payload, hs.stream⟩

/-- In IDLE the invariant asks only that nothing remains. -/
theorem EncInv.of_idle {s : State} (hs : s.encState = .idle) (hr : s.encRemain = 0x0000#16) : EncInv s where
  remain_in_payload := by simp [hs]
  remain_elsewhere := fun _ => hr
  command := fun h => absurd hs h
  crc_before_payload := by simp [hs]
  stream := by simp [hs]

/-- A rejected operation leaves the encoder as it was. -/
theorem EncInv.of_not_accepted {i : Instr} {want : EncState} {s t : State} (hs : EncInv s)
    (hi : acceptedIn i = some want) (hne : s.encState ≠ want) (h : exec i s = .next t) : EncInv t := by
  rw [exec_of_not_accepted hi hne] at h
  cases h
  exact hs.of_unit_kept rfl

theorem EncInv.of_exec_encBegin {c : Byte} {s t : State} (hs : EncInv s) (hidle : s.encState = .idle)
    (h : exec (.encBegin c) s = .next t) : EncInv t := by
  by_cases hc : isCommand c = true
  · rw [exec_encBegin_of_command hidle hc] at h
    cases h
    exact
      { remain_in_payload := nofun
        remain_elsewhere := fun _ => rfl
        command := fun _ => by simpa using (isCommand_iff c).mp hc
        crc_before_payload := fun _ => rfl
        stream := nofun }
  · rw [exec_encBegin_of_not_command hidle hc] at h
    cases h
    exact hs.of_unit_kept rfl

theorem EncInv.of_exec_encLenHi {b : Byte} {s t : State} (hs : EncInv s) (hacc : s.encState = .lenHi)
    (h : exec (.encLenHi b) s = .next t) : EncInv t := by
  rw [exec_encLenHi_of_accepted b hacc] at h
  cases h
  exact
    { remain_in_payload := nofun
      remain_elsewhere := fun _ => hs.remain_elsewhere (by simp [hacc])
      command := fun _ => hs.command (by simp [hacc])
      crc_before_payload := fun _ => hs.crc_before_payload (.inl hacc)
      stream := nofun }

/-- The header goes out with the whole length remaining and the CRC of no bytes. -/
theorem EncInv.of_exec_encLenLo {b : Byte} {s t : State} (hs : EncInv s) (hacc : s.encState = .lenLo)
    (h : exec (.encLenLo b) s = .next t) : EncInv t := by
  have hremain := hs.remain_elsewhere (by simp [hacc])
  by_cases hn : setLow s.encLen b = 0x0000#16
  · rw [exec_encLenLo_of_eq_zero hacc hn] at h
    cases h
    exact .of_idle rfl hremain
  · rw [exec_encLenLo_of_ne_zero hacc hn] at h
    cases h
    exact
      { remain_in_payload := fun _ => ⟨by bv_omega, BitVec.le_refl _⟩
        remain_elsewhere := fun hne => absurd rfl hne
        command := fun _ => hs.command (by simp [hacc])
        crc_before_payload := by simp
        stream := fun _ => ⟨s.tx, [], by simp, by simp, hs.crc_before_payload (.inr hacc)⟩ }

/-- Another payload byte goes out and into the CRC, and one fewer remains. -/
theorem EncInv.of_exec_encData {b : Byte} {s t : State} (hs : EncInv s) (hacc : s.encState = .payload)
    (h : exec (.encData b) s = .next t) : EncInv t := by
  obtain ⟨hpos, hle⟩ := hs.remain_in_payload hacc
  by_cases hr : s.encRemain = 0x0001#16
  · rw [exec_encData_of_eq_one b hacc hr] at h
    cases h
    exact .of_idle rfl rfl
  · rw [exec_encData_of_ne_one b hacc hr] at h
    cases h
    obtain ⟨before, p, htx, hlen, hcrc⟩ := hs.stream hacc
    have hemitted : (s.encLen - (s.encRemain - 1)).toNat = (s.encLen - s.encRemain).toNat + 1 := by
      bv_omega
    exact
      { remain_in_payload := fun _ => ⟨by bv_omega, by bv_omega⟩
        remain_elsewhere := fun hne => absurd hacc hne
        command := fun _ => hs.command (by simp [hacc])
        crc_before_payload := by simp [hacc]
        stream := fun _ => ⟨before, p ++ [b], by simp [htx],
          by rw [hemitted, List.length_append, hlen, List.length_singleton],
          by rw [crc16_concat, hcrc]⟩ }

theorem EncInv.of_exec_encAbort {s t : State} (hs : EncInv s) (h : exec .encAbort s = .next t) :
    EncInv t := by
  by_cases hidle : s.encState = .idle
  · rw [exec_encAbort_of_idle hidle] at h
    cases h
    exact hs
  · rw [exec_encAbort_of_busy hidle] at h
    cases h
    exact .of_idle rfl rfl

/-- A reply byte comes between frames, where the invariant says nothing of TX. -/
theorem EncInv.of_exec_encReply {r : Byte} {s t : State} (hs : EncInv s) (hidle : s.encState = .idle)
    (h : exec (.encReply r) s = .next t) : EncInv t := by
  have hremain := hs.remain_elsewhere (by simp [hidle])
  cases hr : replyByte r with
  | some b =>
    rw [exec_encReply_of_some hidle hr] at h
    cases h
    exact .of_idle hidle hremain
  | none =>
    rw [exec_encReply_of_none hidle hr] at h
    cases h
    exact .of_idle hidle hremain

/-- Every operation keeps the encoder's invariant. -/
theorem EncInv.of_exec {i : Instr} {s t : State} (hs : EncInv s) (h : exec i s = .next t) : EncInv t := by
  cases i with
  | encBegin c =>
    by_cases hacc : s.encState = .idle
    · exact hs.of_exec_encBegin hacc h
    · exact hs.of_not_accepted rfl hacc h
  | encLenHi b =>
    by_cases hacc : s.encState = .lenHi
    · exact hs.of_exec_encLenHi hacc h
    · exact hs.of_not_accepted rfl hacc h
  | encLenLo b =>
    by_cases hacc : s.encState = .lenLo
    · exact hs.of_exec_encLenLo hacc h
    · exact hs.of_not_accepted rfl hacc h
  | encData b =>
    by_cases hacc : s.encState = .payload
    · exact hs.of_exec_encData hacc h
    · exact hs.of_not_accepted rfl hacc h
  | encReply r =>
    by_cases hacc : s.encState = .idle
    · exact hs.of_exec_encReply hacc h
    · exact hs.of_not_accepted rfl hacc h
  | encAbort => exact hs.of_exec_encAbort h
  | softReset =>
    rw [eq_resetBlock_of_reset s t (.inl h)]
    exact .of_idle rfl rfl
  | _ => exact hs.of_unit_kept (exec_keeps_unit (by nofun) (by nofun) h)

/-- Settles O29: by the operations of the encoder; no other step but a reset touches its fields or TX. -/
theorem encoderInvariantKept : Obligations.EncoderInvariantKept :=
  fun _ _ hs h => step_keeps (fun _ _ hs => hs.of_unit_kept rfl) (fun _ _ _ hs => hs.of_exec)
    (fun _ hs => hs.of_unit_kept rfl) hs h

end Sys2Proof.Machine

/-! ## The decoder's invariant (10_state.md R28, R30) -/

namespace Sys2Proof.Machine

@[simp] theorem rxoPayloads_concat_payload (es : List RxEvent) (b : Byte) :
    rxoPayloads (es ++ [.payload b]) = rxoPayloads es ++ [b] := by
  simp [rxoPayloads]

@[simp] theorem rxoPayloads_concat_frameEnd (es : List RxEvent) (v : Verdict) (cmd : Byte) (len : Half) :
    rxoPayloads (es ++ [.frameEnd v cmd len]) = rxoPayloads es := by
  simp [rxoPayloads]

@[simp] theorem lastN_zero {α : Type} (l : List α) : lastN 0 l = [] := by
  simp [lastN]

theorem lastN_concat {α : Type} (n : Nat) (l : List α) (x : α) :
    lastN (n + 1) (l ++ [x]) = lastN n l ++ [x] := by
  rw [lastN, lastN, List.length_append, List.length_singleton, Nat.add_sub_add_right,
    List.drop_append_of_le_length (Nat.sub_le _ _)]

/-- What the decoder's invariant says in every decoder state: RXO holds the payload bytes counted, and
`dec_crc` is their CRC. -/
structure PayloadOnRxo (s : State) : Prop where
  count_on_rxo : s.decCount.toNat ≤ (rxoPayloads s.rxo).length
  running_crc : s.decCrc = crc16 (lastN s.decCount.toNat (rxoPayloads s.rxo))

theorem DecInv.payloadOnRxo {s : State} (hs : DecInv s) : PayloadOnRxo s :=
  ⟨hs.count_on_rxo, hs.running_crc⟩

/-- While the decoder hunts, the invariant asks nothing more. -/
theorem DecInv.of_hunting {s : State} (hs : s.decState = .hunt0 ∨ s.decState = .hunt1)
    (hp : PayloadOnRxo s) : DecInv s where
  count_in_header := by rcases hs with h | h <;> simp [h]
  count_in_payload := by rcases hs with h | h <;> simp [h]
  count_in_trailer := by rcases hs with h | h <;> simp [h]
  count_on_rxo := hp.count_on_rxo
  running_crc := hp.running_crc

/-- No payload byte counted: nothing is asked of RXO. -/
theorem PayloadOnRxo.of_count_zero {s : State} (hn : s.decCount = 0x0000#16) (hc : s.decCrc = 0xFFFF#16) :
    PayloadOnRxo s where
  count_on_rxo := by simp [hn]
  running_crc := by simp [hn, hc]

theorem DecInv.of_unit_kept {s t : State} (hs : DecInv s) (h : copyUnit .dec s t = t)
    (hp : t.params = s.params) : DecInv t := by
  rw [← h]
  exact ⟨hs.count_in_header, by simpa [copyUnit, hp] using hs.count_in_payload, hs.count_in_trailer,
    hs.count_on_rxo, hs.running_crc⟩

/-- The end of a frame leaves the payload and its count as they are. -/
theorem DecInv.of_frameEnd {s : State} (hp : PayloadOnRxo s) (v : Verdict) : DecInv (frameEnd v s) :=
  .of_hunting (.inl rfl)
    ⟨by simpa using hp.count_on_rxo, by simpa using hp.running_crc⟩

theorem DecInv.of_rxHunt1 {s : State} (hs : DecInv s) (hd : s.decState = .hunt1) (b : Byte) :
    DecInv (rxHunt1 b s) := by
  by_cases h1 : b = 0xAA#8
  · rw [h1, rxHunt1_pre1]
    exact
      { count_in_header := fun _ => rfl
        count_in_payload := nofun
        count_in_trailer := by simp
        count_on_rxo := by simp
        running_crc := by simp }
  · by_cases h0 : b = 0x55#8
    · rw [h0, rxHunt1_pre0]
      exact .of_hunting (.inr hd) ⟨hs.count_on_rxo, hs.running_crc⟩
    · rw [rxHunt1_of_ne s h1 h0]
      exact .of_hunting (.inl rfl) ⟨hs.count_on_rxo, hs.running_crc⟩

theorem DecInv.of_rxHunt0 {s : State} (hs : DecInv s) (hd : s.decState = .hunt0) (b : Byte) :
    DecInv (rxHunt0 b s) := by
  by_cases h0 : b = 0x55#8
  · rw [h0, rxHunt0_pre0]
    exact .of_hunting (.inr rfl) ⟨hs.count_on_rxo, hs.running_crc⟩
  · rw [rxHunt0_of_ne s h0]
    exact .of_hunting (.inl hd) ⟨hs.count_on_rxo, hs.running_crc⟩

/-- The length check lets a payload begin only within the limit. -/
theorem DecInv.of_rxLenLo {s : State} (hs : DecInv s) (hd : s.decState = .lenLo) (b : Byte) :
    DecInv (rxLenLo b s) := by
  have hcount := hs.count_in_header (.inr (.inr hd))
  rcases rxLenLo_cases b s with ⟨-, h⟩ | ⟨-, h0, h⟩ | ⟨hle, h0, h⟩ <;> rw [h]
  · exact .of_frameEnd (s := { s with decLen := setLow s.decLen b })
      ⟨hs.count_on_rxo, hs.running_crc⟩ .lenErr
  · exact
      { count_in_header := by simp
        count_in_payload := nofun
        count_in_trailer := fun _ => hcount.trans h0.symm
        count_on_rxo := hs.count_on_rxo
        running_crc := hs.running_crc }
  · exact
      { count_in_header := by simp
        count_in_payload := fun _ => by
          simp only [hcount]
          exact ⟨by bv_omega, by bv_omega, BitVec.not_lt.mp hle⟩
        count_in_trailer := by simp
        count_on_rxo := hs.count_on_rxo
        running_crc := hs.running_crc }

/-- Another payload byte goes to RXO and into the CRC, and the count reaches the length or stays below it. -/
theorem DecInv.of_rxPayload {s : State} (hs : DecInv s) (hd : s.decState = .payload) (b : Byte) :
    DecInv (rxPayload b s) := by
  obtain ⟨hlt, hpos, hle⟩ := hs.count_in_payload hd
  have hsucc : (s.decCount + 1).toNat = s.decCount.toNat + 1 := by bv_omega
  have hp : PayloadOnRxo (rxPayload b s) :=
    { count_on_rxo := by
        simp only [rxPayload, rxoPayloads_concat_payload, hsucc, List.length_append]
        exact Nat.succ_le_succ hs.count_on_rxo
      running_crc := by
        simp only [rxPayload, rxoPayloads_concat_payload, hsucc]
        rw [lastN_concat, crc16_concat, hs.running_crc] }
  by_cases hc : s.decCount + 1 = s.decLen
  · rw [rxPayload_of_eq b hc] at hp ⊢
    exact
      { count_in_header := by simp
        count_in_payload := nofun
        count_in_trailer := fun _ => hc
        count_on_rxo := hp.count_on_rxo
        running_crc := hp.running_crc }
  · rw [rxPayload_of_ne b hd hc] at hp ⊢
    exact
      { count_in_header := by simp [hd]
        count_in_payload := fun _ => ⟨by bv_omega, hpos, hle⟩
        count_in_trailer := by simp [hd]
        count_on_rxo := hp.count_on_rxo
        running_crc := hp.running_crc }

theorem DecInv.of_rxByte {s : State} (hs : DecInv s) (b : Byte) : DecInv (rxByte b s.decState s) := by
  cases hd : s.decState with
  | hunt0 => exact hs.of_rxHunt0 hd b
  | hunt1 => exact hs.of_rxHunt1 hd b
  | cmd =>
    exact
      { count_in_header := fun _ => hs.count_in_header (.inl hd)
        count_in_payload := nofun
        count_in_trailer := by simp [rxByte, rxCmd]
        count_on_rxo := hs.count_on_rxo
        running_crc := hs.running_crc }
  | lenHi =>
    exact
      { count_in_header := fun _ => hs.count_in_header (.inr (.inl hd))
        count_in_payload := nofun
        count_in_trailer := by simp [rxByte, rxLenHi]
        count_on_rxo := hs.count_on_rxo
        running_crc := hs.running_crc }
  | lenLo => exact hs.of_rxLenLo hd b
  | payload => exact hs.of_rxPayload hd b
  | crcHi =>
    exact
      { count_in_header := by simp [rxByte, rxCrcHi]
        count_in_payload := nofun
        count_in_trailer := fun _ => hs.count_in_trailer (.inl hd)
        count_on_rxo := hs.count_on_rxo
        running_crc := hs.running_crc }
  | crcLo =>
    exact .of_frameEnd (s := { s with decCrcRx := setLow s.decCrcRx b })
      ⟨hs.count_on_rxo, hs.running_crc⟩ _

theorem DecInv.of_abortIn {s : State} (hs : DecInv s) : DecInv (abortIn s.decState s) := by
  cases hd : s.decState with
  | hunt0 => exact hs
  | hunt1 => exact .of_hunting (.inl rfl) ⟨hs.count_on_rxo, hs.running_crc⟩
  | _ => exact .of_frameEnd hs.payloadOnRxo .aborted

/-- Every operation keeps the decoder's invariant. -/
theorem DecInv.of_exec {i : Instr} {s t : State} (hs : DecInv s) (h : exec i s = .next t) : DecInv t := by
  cases i with
  | decRx b =>
    rw [exec_decRx] at h
    cases h
    exact hs.of_rxByte b
  | decAbort =>
    rw [exec_decAbort] at h
    cases h
    exact hs.of_abortIn
  | softReset =>
    rw [eq_resetBlock_of_reset s t (.inl h)]
    exact .of_hunting (.inl rfl) (.of_count_zero rfl rfl)
  | _ => exact hs.of_unit_kept (exec_keeps_unit (by nofun) (by nofun) h) (exec_keepsUnlisted _ s t h).params

/-- Settles O35: by the decoder's states; no other step but a reset touches its fields or RXO. -/
theorem decoderInvariantKept : Obligations.DecoderInvariantKept :=
  fun _ _ hs h => step_keeps (fun _ _ hs => hs.of_unit_kept rfl rfl) (fun _ _ _ hs => hs.of_exec)
    (fun _ hs => hs.of_unit_kept rfl rfl) hs h

end Sys2Proof.Machine

/-! ## The ends of frames (10_state.md R31, R44, 60_exceptions.md R182) -/

namespace Sys2Proof.Machine

/-- From `s` to `t` a frame ends: `t` is the end of a frame, with a verdict, in a state with the RXO and the
frame counters of `s`. -/
def EndsFrame (s t : State) : Prop :=
  ∃ (v : Verdict) (s₁ : State), v ≠ .none ∧ t = frameEnd v s₁ ∧
    s₁.rxo = s.rxo ∧ s₁.cntRxOk = s.cntRxOk ∧ s₁.cntRxBad = s.cntRxBad

/-- From `s` to `t` no frame ends: RXO gets at most a payload byte, and the frame counters are kept or
cleared. -/
def EndsNoFrame (s t : State) : Prop :=
  (t.rxo = s.rxo ∨ ∃ b, t.rxo = s.rxo ++ [.payload b]) ∧
    (t.cntRxOk = s.cntRxOk ∨ t.cntRxOk = 0x0000#16) ∧ (t.cntRxBad = s.cntRxBad ∨ t.cntRxBad = 0x0000#16)

theorem EndsNoFrame.of_kept {s t : State} (hrxo : t.rxo = s.rxo) (hok : t.cntRxOk = s.cntRxOk)
    (hbad : t.cntRxBad = s.cntRxBad) : EndsNoFrame s t :=
  ⟨.inl hrxo, .inl hok, .inl hbad⟩

theorem frameVerdict_ne_none (crcRx crc : Half) (cmd : Byte) : frameVerdict crcRx crc cmd ≠ .none := by
  rcases frameVerdict_cases crcRx crc cmd with ⟨-, h⟩ | ⟨-, -, h⟩ | ⟨-, -, h⟩ <;> simp [h]

/-- A byte ends a frame in LEN_LO, over the limit, and in CRC_LO. -/
theorem rxByte_ends_or_not (b : Byte) (d : DecState) (s : State) :
    EndsFrame s (rxByte b d s) ∨ EndsNoFrame s (rxByte b d s) := by
  cases d with
  | hunt0 =>
    refine .inr ?_
    dsimp only [rxByte, rxHunt0]
    split <;> exact .of_kept rfl rfl rfl
  | hunt1 =>
    refine .inr ?_
    dsimp only [rxByte, rxHunt1]
    split
    · exact .of_kept rfl rfl rfl
    · split <;> exact .of_kept rfl rfl rfl
  | lenLo =>
    dsimp only [rxByte]
    rcases rxLenLo_cases b s with ⟨-, h⟩ | ⟨-, -, h⟩ | ⟨-, -, h⟩ <;> rw [h]
    · exact .inl ⟨.lenErr, _, nofun, rfl, rfl, rfl, rfl⟩
    · exact .inr (.of_kept rfl rfl rfl)
    · exact .inr (.of_kept rfl rfl rfl)
  | payload => exact .inr ⟨.inr ⟨b, rfl⟩, .inl rfl, .inl rfl⟩
  | crcLo => exact .inl ⟨_, _, frameVerdict_ne_none _ _ _, rfl, rfl, rfl, rfl⟩
  | cmd | lenHi | crcHi => exact .inr (.of_kept rfl rfl rfl)

theorem abortIn_ends_or_not (d : DecState) (s : State) :
    EndsFrame s (abortIn d s) ∨ EndsNoFrame s (abortIn d s) := by
  cases d with
  | hunt0 | hunt1 => exact .inr (.of_kept rfl rfl rfl)
  | _ => exact .inl ⟨.aborted, s, nofun, rfl, rfl, rfl, rfl⟩

theorem exec_ends_or_not {i : Instr} {s t : State} (h : exec i s = .next t) :
    EndsFrame s t ∨ EndsNoFrame s t := by
  cases i with
  | decRx b =>
    rw [exec_decRx] at h
    cases h
    exact rxByte_ends_or_not b s.decState s
  | decAbort =>
    rw [exec_decAbort] at h
    cases h
    exact abortIn_ends_or_not s.decState s
  | cntClear | softReset =>
    cases h
    exact .inr ⟨.inl rfl, .inr rfl, .inr rfl⟩
  | _ =>
    have hkeeps := exec_keepsUnlisted _ s t h
    obtain ⟨hok, hbad, -⟩ := hkeeps.rxCounters (by simp [Instr.opcode])
    exact .inr (.of_kept (hkeeps.rxo (by simp [Instr.opcode])) hok hbad)

/-- Every step ends a frame or does not; taking an input changes neither RXO nor the counters. -/
theorem step_ends_or_not {s t : State} (h : step s = .next t) : EndsFrame s t ∨ EndsNoFrame s t :=
  step_rule (P := fun s t => EndsFrame s t ∨ EndsNoFrame s t) (fun _ => .inr (.of_kept rfl rfl rfl))
    (fun _ _ _ h => h) (fun _ _ _ => exec_ends_or_not) (fun _ => .inr (.of_kept rfl rfl rfl)) h

/-- The frame that ends is the one whose End event is emitted. -/
theorem EndsFrame.rxo_eq {s t : State} (h : EndsFrame s t) :
    ∃ v, v ≠ .none ∧ t.rxo = s.rxo ++ [.frameEnd v t.decCmd t.decLen] := by
  obtain ⟨v, s₁, hv, rfl, hrxo, -, -⟩ := h
  exact ⟨v, hv, by rw [frameEnd_rxo, hrxo, frameEnd_decCmd, frameEnd_decLen]⟩

theorem EndsNoFrame.rxo_ne {s t : State} (h : EndsNoFrame s t) (v : Verdict) (cmd : Byte) (len : Half) :
    t.rxo ≠ s.rxo ++ [.frameEnd v cmd len] := by
  obtain ⟨hrxo | ⟨b, hrxo⟩, -, -⟩ := h <;> simp [hrxo]

/-- What the end of a frame leaves, its End event naming the verdict. -/
theorem EndsFrame.recorded {s t : State} (h : EndsFrame s t) {v : Verdict} {cmd : Byte} {len : Half}
    (hrxo : t.rxo = s.rxo ++ [.frameEnd v cmd len]) :
    v ≠ .none ∧ t.decVerdict = v ∧ cmd = t.decCmd ∧ len = t.decLen ∧ t.decState = .hunt0 ∧
      (v = .ok → t.cntRxOk = s.cntRxOk + 1 ∧ t.cntRxBad = s.cntRxBad ∧ t.evt.getLsbD 0 = true) ∧
      (v ≠ .ok → t.cntRxBad = s.cntRxBad + 1 ∧ t.cntRxOk = s.cntRxOk ∧ t.evt.getLsbD 1 = true) := by
  obtain ⟨v', s₁, hv, rfl, hs₁, hok, hbad⟩ := h
  rw [frameEnd_rxo, hs₁, List.append_cancel_left_eq, List.singleton_inj, RxEvent.frameEnd.injEq] at hrxo
  obtain ⟨rfl, rfl, rfl⟩ := hrxo
  refine ⟨hv, rfl, rfl, rfl, rfl, ?_, fun hne => ?_⟩
  · rintro rfl
    rw [frameEnd_ok]
    exact ⟨congrArg (· + 1) hok, hbad, by simp⟩
  · rw [frameEnd_of_ne_ok s₁ hne]
    exact ⟨congrArg (· + 1) hbad, hok, by simp⟩

/-- Settles O56: a step that emits an End ends a frame, and any other ends none. -/
theorem verdictsAreCounted : Obligations.VerdictsAreCounted := by
  refine ⟨fun s t v cmd len h hrxo => ?_, fun s t h hno => ?_⟩
  · rcases step_ends_or_not h with hend | hend
    · exact hend.recorded hrxo
    · exact absurd hrxo (hend.rxo_ne v cmd len)
  · rcases step_ends_or_not h with hend | ⟨-, hcounters⟩
    · obtain ⟨v, -, hrxo⟩ := hend.rxo_eq
      exact absurd hrxo (hno v _ _)
    · exact hcounters

/-- Settles O59: the one End event a step can emit carries the verdict of the frame it ends. -/
theorem endVerdictsKept : Obligations.EndVerdictsKept := by
  intro s t hs h v cmd len hmem
  rcases step_ends_or_not h with hend | ⟨hrxo | ⟨b, hrxo⟩, -⟩
  · obtain ⟨v', hv', hrxo⟩ := hend.rxo_eq
    rw [hrxo, List.mem_append, List.mem_singleton] at hmem
    rcases hmem with hmem | hnew
    · exact hs v cmd len hmem
    · cases hnew
      exact hv'
  · exact hs v cmd len (hrxo ▸ hmem)
  · rw [hrxo, List.mem_append, List.mem_singleton] at hmem
    rcases hmem with hmem | hnew
    · exact hs v cmd len hmem
    · cases hnew

end Sys2Proof.Machine

/-! ## The invariants in every reachable state (10_state.md R27, R30, R44) -/

namespace Sys2Proof.Machine

/-- Settles O57: after reset both units are at rest, nothing is counted and RXO is empty. -/
theorem invariantsHoldAtReset : Obligations.InvariantsHoldAtReset :=
  fun _ => ⟨.of_idle rfl rfl, .of_hunting (.inl rfl) (.of_count_zero rfl rfl),
    fun _ _ _ hmem => absurd hmem List.not_mem_nil⟩

/-- Settles O58: by induction on how the state is reached; an arrival changes the port alone. -/
theorem invariantsHoldWhenReachable : Obligations.InvariantsHoldWhenReachable := by
  intro s hs
  induction hs with
  | start p => exact invariantsHoldAtReset p
  | arrive s xs _ ih =>
    obtain ⟨henc, hdec, hends⟩ := ih
    exact ⟨henc.of_unit_kept rfl, hdec.of_unit_kept rfl rfl, hends⟩
  | step s t _ hstep ih =>
    obtain ⟨henc, hdec, hends⟩ := ih
    exact ⟨encoderInvariantKept s t henc hstep, decoderInvariantKept s t hdec hstep,
      endVerdictsKept s t hends hstep⟩

end Sys2Proof.Machine

/-! ## The CRC tells apart what differs in one place (40_crc.md section 3, 42_decoder.md R143) -/

namespace Sys2Proof.Machine

theorem crcShift_iterate_injective (n : Nat) : Function.Injective crcShift^[n] := by
  intro v v' h
  rwa [← BitVec.xor_eq_zero_iff, ← crcShift_iterate_eq_zero_iff n, crcShift_iterate_xor,
    BitVec.xor_eq_zero_iff]

theorem withHigh_injective : Function.Injective withHigh := fun b b' h => by
  rw [← hiByte_joinBytes b 0x00#8, ← hiByte_joinBytes b' 0x00#8]
  exact congrArg hiByte h

/-- Two registers stay apart under the same byte. -/
theorem crc16Step_left_injective (b : Byte) : Function.Injective fun c => crc16Step c b :=
  fun _ _ h => (BitVec.xor_left_inj _).mp (crcShift_iterate_injective 8 h)

/-- Two bytes take a register to different values. -/
theorem crc16Step_right_injective (c : Half) : Function.Injective (crc16Step c) :=
  fun _ _ h => withHigh_injective ((BitVec.xor_right_inj _).mp (crcShift_iterate_injective 8 h))

theorem foldl_crc16Step_injective (d : List Byte) : Function.Injective fun c => d.foldl crc16Step c := by
  induction d with
  | nil => exact fun _ _ h => h
  | cons b d ih => exact ih.comp (crc16Step_left_injective b)

theorem crc16_ne_of_byte_ne (before after : List Byte) {b b' : Byte} (h : b ≠ b') :
    crc16 (before ++ b :: after) ≠ crc16 (before ++ b' :: after) := by
  simp only [crc16_eq_foldl, List.foldl_append, List.foldl_cons]
  exact fun heq => h (crc16Step_right_injective _ (foldl_crc16Step_injective after heq))

theorem xor_bit_ne (b : Byte) {k : Nat} (hk : k < 8) : b ^^^ (1#8 <<< k) ≠ b := by
  intro h
  have hbit : (b ^^^ (1#8 <<< k)).getLsbD k = !b.getLsbD k := by
    simp [hk]
  rw [h] at hbit
  exact (Bool.eq_not_self _).mp hbit

/-- Settles O20: the step is injective in its byte and in its register. -/
theorem crcDetectsSingleBitFlip : Obligations.CrcDetectsSingleBitFlip :=
  fun before after b _ hk => crc16_ne_of_byte_ne before after (xor_bit_ne b hk)

theorem foldl_crc16Step_replicate_zero (n : Nat) :
    (List.replicate n 0x00#8).foldl crc16Step 0x0000#16 = 0x0000#16 := by
  induction n with
  | zero => rfl
  | succ n ih =>
    have hstep : crc16Step 0x0000#16 0x00#8 = 0x0000#16 := by decide
    rw [List.replicate_succ, List.foldl_cons, hstep, ih]

theorem frameHeader_length (c : Byte) (n : Half) : (frameHeader c n).length = 5 := rfl

theorem frameTrailer_length (crc : Half) : (frameTrailer crc).length = 2 := rfl

theorem drop_frameBytes (c : Byte) (p : List Byte) :
    (frameBytes c p).drop (p.length + 5) = frameTrailer (crc16 p) := by
  refine List.drop_left' ?_
  rw [List.length_append, frameHeader_length, Nat.add_comm]

/-- Settles O19: FF FF brings the register to 0, where zeros leave it, and a frame's trailer is its
payload's CRC. -/
theorem crcBlindSpots : Obligations.CrcBlindSpots := by
  refine ⟨fun n => ?_, fun c c' p => ⟨drop_frameBytes c p, ?_⟩⟩
  · have hff : crc16 [0xFF#8, 0xFF#8] = 0x0000#16 :=
      crc16_of_isCrcRun [(0xFF#8, 0xFF00#16), (0xFF#8, 0x0000#16)] ⟨rfl, rfl, trivial⟩
    rw [crc16_eq_foldl, List.foldl_append, ← crc16_eq_foldl, hff, foldl_crc16Step_replicate_zero]
  · rw [drop_frameBytes, drop_frameBytes]

end Sys2Proof.Machine

/-! ## The frame the encoder builds (41_encoder.md R117) -/

namespace Sys2Proof.Machine

/-- As many payload bytes as remain go out and into the CRC, and the last one is followed by the trailer. -/
theorem feed_encData (p : List Byte) (s : State) (hs : s.encState = .payload) (hp : p ≠ [])
    (hlen : s.encRemain.toNat = p.length) :
    feed (asInputs (p.map .encData)) s = .next (finishTx { s with
      tx := s.tx ++ p, encCrc := p.foldl crc16Step s.encCrc, encRemain := 0x0000#16 }) := by
  induction p generalizing s with
  | nil => exact absurd rfl hp
  | cons b p ih =>
    rw [List.length_cons] at hlen
    by_cases hlast : p = []
    · have hr : s.encRemain = 0x0001#16 := by
        rw [hlast, List.length_nil] at hlen
        bv_omega
      rw [hlast, List.map_cons, feed_asInputs_cons _ (exec_encData_of_eq_one b hs hr), finishTx_spec]
      simp [feed_nil, asInputs, frameTrailer, evtMask, evtBit]
    · have hr : s.encRemain ≠ 0x0001#16 := by
        have := List.length_pos_iff.mpr hlast
        bv_omega
      have hrest : (s.encRemain - 1).toNat = p.length := by bv_omega
      rw [List.map_cons, feed_asInputs_cons _ (exec_encData_of_ne_one b hs hr)]
      refine Eq.trans (ih _ ?_ hlast hrest) ?_
      · exact hs
      · rw [List.append_assoc, List.singleton_append, List.foldl_cons]

/-- The operations that R110 lists for a frame. -/
def frameOps (c : Byte) (p : List Byte) : List Instr :=
  [.encBegin c, .encLenHi (hiByte (BitVec.ofNat 16 p.length)),
    .encLenLo (loByte (BitVec.ofNat 16 p.length))] ++ p.map .encData

/-- The state in which only the frame's trailer is still to be sent. -/
def beforeTrailer (c : Byte) (p : List Byte) (s : State) : State :=
  { s with
    encCmd := c, encLen := BitVec.ofNat 16 p.length, encRemain := 0x0000#16, encCrc := crc16 p
    tx := s.tx ++ frameHeader c (BitVec.ofNat 16 p.length) ++ p }

/-- The length after its two bytes (R112, R113). -/
theorem setLow_hi_lo (n : Half) : setLow (hiByte n ++ 0x00#8) (loByte n) = n :=
  (setLow_withHigh _ _).trans (joinBytes_hi_lo n)

/-- The two length operations of a frame with a payload send the header. -/
theorem feed_encLen_of_ne_zero {n : Half} {s : State} (is : List Instr) (hs : s.encState = .lenHi)
    (hn : n ≠ 0x0000#16) :
    feed (asInputs (.encLenHi (hiByte n) :: .encLenLo (loByte n) :: is)) s = feed (asInputs is) { s with
      encLen := n, encRemain := n, encState := .payload, tx := s.tx ++ frameHeader s.encCmd n } := by
  have hlo := exec_encLenLo_of_ne_zero (l := loByte n)
    (s := { s with encLen := hiByte n ++ 0x00#8, encState := .lenLo }) rfl
  simp only [setLow_hi_lo] at hlo
  rw [feed_asInputs_cons _ (exec_encLenHi_of_accepted _ hs), feed_asInputs_cons _ (hlo hn)]

/-- The two length operations of a frame with no payload send the whole of it. -/
theorem feed_encLen_of_eq_zero {s : State} (hs : s.encState = .lenHi) :
    feed (asInputs [.encLenHi (hiByte 0x0000#16), .encLenLo (loByte 0x0000#16)]) s =
      .next (finishTx { s with encLen := 0x0000#16, tx := s.tx ++ frameHeader s.encCmd 0x0000#16 }) := by
  have hlo := exec_encLenLo_of_eq_zero (l := loByte 0x0000#16)
    (s := { s with encLen := hiByte 0x0000#16 ++ 0x00#8, encState := .lenLo }) rfl (setLow_hi_lo _)
  rw [feed_asInputs_cons _ (exec_encLenHi_of_accepted _ hs), feed_asInputs_cons _ hlo, ← List.append_assoc]
  rfl

theorem feed_frameOps {c : Byte} {p : List Byte} {s : State} (hc : isCommand c = true)
    (hp : p.length ≤ 65535) (hs : s.encState = .idle) :
    feed (asInputs (frameOps c p)) s = .next (finishTx (beforeTrailer c p s)) := by
  simp only [frameOps, List.cons_append, List.nil_append]
  rw [feed_asInputs_cons _ (exec_encBegin_of_command hs hc)]
  by_cases hnil : p = []
  · subst hnil
    refine Eq.trans (feed_encLen_of_eq_zero ?_) ?_
    · rfl
    · rw [beforeTrailer, List.append_nil]
      rfl
  · have hpos := List.length_pos_iff.mpr hnil
    have hlen : (BitVec.ofNat 16 p.length).toNat = p.length := Nat.mod_eq_of_lt (by omega)
    refine Eq.trans (feed_encLen_of_ne_zero _ ?_ ?_) (Eq.trans (feed_encData p _ ?_ hnil hlen) ?_)
    · rfl
    · bv_omega
    · rfl
    · rw [beforeTrailer, crc16_eq_foldl]
      rfl

/-- Settles O28: the encoder's operations alone send the frame, and what comes between leaves the encoder
as it is. -/
theorem encoderBuildsDocFrame : Obligations.EncoderBuildsDocFrame := by
  intro c p xs s hc hp hs hops hreset
  have hrun := feed_frameOps ((isCommand_iff c).mpr hc) hp hs
  obtain ⟨t, hfeed, hfol⟩ := feed_unit (u := .enc) nofun hops hreset hrun
  have htx : t.tx = s.tx ++ frameHeader c (BitVec.ofNat 16 p.length) ++ p ++ frameTrailer (crc16 p) :=
    congrArg State.tx hfol.unit.symm
  refine ⟨t, hfeed, ?_, ?_, congrArg State.encState hfol.unit.symm, congrArg State.encCmd hfol.unit.symm,
    congrArg State.encLen hfol.unit.symm, congrArg State.encRemain hfol.unit.symm,
    congrArg State.encCrc hfol.unit.symm, fun hclear => ?_, fun hack => ?_⟩
  · rw [htx]
    simp only [List.append_assoc]
    rfl
  · simp only [htx, List.length_append, frameHeader_length, frameTrailer_length]
    omega
  · exact List.head_eq_of_cons_eq (hfol.counters hclear)
  · exact hfol.evt hack 2 (by simp [setEvt, evtMask, evtBit])

end Sys2Proof.Machine

/-! ## The frame the decoder takes apart (42_decoder.md R131 to R140, R143, R144) -/

namespace Sys2Proof.Machine

/-- The decoder after a sequence of link bytes. -/
def rxAll (bs : List Byte) (s : State) : State := bs.foldl (fun s b => rxByte b s.decState s) s

theorem rxAll_cons (b : Byte) (bs : List Byte) (s : State) :
    rxAll (b :: bs) s = rxAll bs (rxByte b s.decState s) := rfl

theorem rxAll_append (bs cs : List Byte) (s : State) : rxAll (bs ++ cs) s = rxAll cs (rxAll bs s) :=
  List.foldl_append

theorem feed_decRx (bs : List Byte) (s : State) :
    feed (asInputs (bs.map .decRx)) s = .next (rxAll bs s) := by
  induction bs generalizing s with
  | nil => rfl
  | cons b bs ih => rw [List.map_cons, feed_asInputs_cons _ (exec_decRx b s), ih, rxAll_cons]

/-! ### Hunting -/

/-- `s` with `n` more bytes discarded, and `evt` left open. -/
def discarding (n : Nat) (e : Byte) (s : State) : State :=
  { s with cntDiscard := s.cntDiscard + BitVec.ofNat 16 n, evt := e }

/-- One more byte discarded, then `n`. -/
theorem discarding_succ (n : Nat) (e e' : Byte) (s : State) :
    discarding n e { s with cntDiscard := s.cntDiscard + 1, evt := e' } = discarding (n + 1) e s := by
  have hadd : s.cntDiscard + 1 + BitVec.ofNat 16 n = s.cntDiscard + BitVec.ofNat 16 (n + 1) := by
    rw [BitVec.ofNat_add, BitVec.add_comm (BitVec.ofNat 16 n), ← BitVec.add_assoc]
    rfl
  rw [discarding, discarding, hadd]

/-- Bytes that cannot begin a preamble are discarded one by one (R131 (a)). -/
theorem rxAll_garbage (g : List Byte) (s : State) (hg : ∀ b ∈ g, b ≠ 0x55#8)
    (hs : s.decState = .hunt0) :
    ∃ e, rxAll g s = discarding g.length e s := by
  induction g generalizing s with
  | nil => exact ⟨s.evt, by simp [rxAll, discarding]⟩
  | cons b g ih =>
    obtain ⟨hb, hg⟩ := List.forall_mem_cons.mp hg
    rw [rxAll_cons, hs, rxByte, rxHunt0_of_ne s hb]
    obtain ⟨e, he⟩ := ih { s with cntDiscard := s.cntDiscard + 1, evt := s.evt ||| 0x08#8 } hg hs
    exact ⟨e, by rw [he, discarding_succ, List.length_cons]⟩

/-- With a 0x55 held, each further one is held in its place (R131 (c)). -/
theorem rxAll_strays (k : Nat) (s : State) (hs : s.decState = .hunt1) :
    ∃ e, rxAll (List.replicate k 0x55#8) s = discarding k e s := by
  induction k generalizing s with
  | zero => exact ⟨s.evt, by simp [rxAll, discarding]⟩
  | succ k ih =>
    rw [List.replicate_succ, rxAll_cons, hs, rxByte, rxHunt1_pre0]
    obtain ⟨e, he⟩ := ih { s with cntDiscard := s.cntDiscard + 1, evt := s.evt ||| 0x08#8 } hs
    exact ⟨e, by rw [he, discarding_succ]⟩

/-- Garbage, stray bytes and the first preamble byte: the last 0x55 is the one held. -/
theorem rxAll_hunt (g : List Byte) (k : Nat) (s : State) (hg : ∀ b ∈ g, b ≠ 0x55#8)
    (hs : s.decState = .hunt0) :
    ∃ e, rxAll (g ++ List.replicate (k + 1) 0x55#8) s =
      discarding (g.length + k) e { s with decState := .hunt1 } := by
  obtain ⟨e, he⟩ := rxAll_garbage g s hg hs
  have hstate : (discarding g.length e s).decState = .hunt0 := hs
  rw [rxAll_append, he, List.replicate_succ, rxAll_cons, hstate, rxByte, rxHunt0_pre0]
  obtain ⟨e', he'⟩ := rxAll_strays k { discarding g.length e s with decState := .hunt1 } rfl
  refine ⟨e', he'.trans ?_⟩
  simp only [discarding, BitVec.ofNat_add, BitVec.add_assoc]

/-! ### Header, payload and trailer -/

/-- The second length byte of a length within the limit (R135, R136). -/
theorem rxLenLo_of_within_limit {n : Half} {s : State} (hs : s.decLen = withHigh (hiByte n))
    (hn : n ≤ s.params.rxMaxLen) :
    rxLenLo (loByte n) s = { s with
      decLen := n, decState := if n = 0x0000#16 then .crcHi else .payload } := by
  have hlow : setLow s.decLen (loByte n) = n := by rw [hs, setLow_withHigh, joinBytes_hi_lo]
  by_cases h0 : n = 0x0000#16
  · rw [rxLenLo_of_eq_zero (by rwa [hlow]) (hlow.trans h0), if_pos h0, hlow]
  · rw [rxLenLo_of_ne_zero (by rwa [hlow]) (hlow.trans_ne h0), if_neg h0, hlow]

/-- The rest of the header, for a length within the limit. -/
theorem rxAll_header {n : Half} {s : State} (c : Byte) (hs : s.decState = .hunt1)
    (hn : n ≤ s.params.rxMaxLen) :
    rxAll [0xAA#8, c, hiByte n, loByte n] s = { s with
      decState := if n = 0x0000#16 then .crcHi else .payload
      decCmd := c, decLen := n, decCount := 0x0000#16, decCrc := 0xFFFF#16, decCrcRx := 0x0000#16 } := by
  rw [rxAll_cons, hs, rxByte, rxHunt1_pre1]
  refine Eq.trans (rxLenLo_of_within_limit ?_ ?_) ?_
  · rfl
  · exact hn
  · rfl

/-- The bytes still to be counted are the payload's, each emitted and taken into the CRC. -/
theorem rxAll_payload (p : List Byte) (s : State)
    (hs : s.decState = if p = [] then .crcHi else .payload)
    (hlen : s.decCount.toNat + p.length = s.decLen.toNat) :
    rxAll p s = { s with
      decState := .crcHi, decCount := s.decLen, decCrc := p.foldl crc16Step s.decCrc
      rxo := s.rxo ++ p.map .payload } := by
  induction p generalizing s with
  | nil =>
    have hcount : s.decCount = s.decLen := BitVec.eq_of_toNat_eq hlen
    rw [if_pos rfl] at hs
    apply State.ext <;> simp [rxAll, hs, hcount]
  | cons b p ih =>
    rw [if_neg (List.cons_ne_nil b p)] at hs
    rw [List.length_cons] at hlen
    have hsucc : (s.decCount + 1).toNat = s.decCount.toNat + 1 := by bv_omega
    have hlast : s.decCount + 1 = s.decLen ↔ p = [] := by
      rw [← List.length_eq_zero_iff, ← BitVec.toNat_inj]
      omega
    rw [rxAll_cons, hs, rxByte, ih (rxPayload b s) (by simp only [rxPayload, hlast]) (by
      simp only [rxPayload, hsucc]
      omega)]
    simp [rxPayload]

/-- The received checksum is judged against the running CRC (R138 to R140). -/
theorem rxAll_trailer (x : Half) (s : State) (hs : s.decState = .crcHi) :
    rxAll (frameTrailer x) s =
      frameEnd (frameVerdict x s.decCrc s.decCmd) { s with decCrcRx := x, decState := .crcLo } := by
  have hlow : setLow (withHigh (hiByte x)) (loByte x) = x := setLow_hi_lo x
  simp only [frameTrailer, rxAll, List.foldl_cons, List.foldl_nil, hs, rxByte, rxCrcHi, rxCrcLo, hlow]

/-- A frame of `p` with the checksum `x` received from `s`: all but its verdict. -/
def frameReceived (c : Byte) (p : List Byte) (x : Half) (s : State) : State :=
  { s with
    decState := .crcLo, decCmd := c, decLen := BitVec.ofNat 16 p.length
    decCount := BitVec.ofNat 16 p.length, decCrc := crc16 p, decCrcRx := x
    rxo := s.rxo ++ p.map .payload }

/-- A frame within the limit after its first preamble byte, whatever its command and its checksum. -/
theorem rxAll_frame {p : List Byte} {s : State} (c : Byte) (x : Half) (hs : s.decState = .hunt1)
    (hp : p.length ≤ s.params.rxMaxLen.toNat) :
    rxAll ([0xAA#8, c, hiByte (BitVec.ofNat 16 p.length), loByte (BitVec.ofNat 16 p.length)] ++
        (p ++ frameTrailer x)) s =
      frameEnd (frameVerdict x (crc16 p) c) (frameReceived c p x s) := by
  have hlt := s.params.rxMaxLen.isLt
  have hn : (BitVec.ofNat 16 p.length).toNat = p.length := Nat.mod_eq_of_lt (by omega)
  have hzero : BitVec.ofNat 16 p.length = 0x0000#16 ↔ p = [] := by
    rw [← BitVec.toNat_inj, hn, ← List.length_eq_zero_iff]
    rfl
  rw [rxAll_append, rxAll_header c hs (BitVec.le_def.mpr (hn.trans_le hp)), rxAll_append,
    rxAll_payload p _ (by simp only [hzero]) (by simp [hn]), rxAll_trailer x _ rfl, ← crc16_eq_foldl]
  rfl

/-! ### Among other inputs -/

/-- The decoder's counters, where no CNT.CLEAR came between. -/
theorem Follows.rxCounters {counted unacked : Prop} {r s : State} (hf : Follows .dec counted unacked r s)
    (hc : counted) :
    s.cntRxOk = r.cntRxOk ∧ s.cntRxBad = r.cntRxBad ∧ s.cntDiscard = r.cntDiscard := by
  simpa [unitCounters] using hf.counters hc

/-- A frame after garbage and stray bytes is decoded whatever comes between its bytes, a reset excepted. -/
theorem feed_frame {g p : List Byte} {k : Nat} {c : Byte} {x : Half} {xs : List PortInput} {s : State}
    (hg : ∀ b ∈ g, b ≠ 0x55#8) (hp : p.length ≤ s.params.rxMaxLen.toNat) (hs : s.decState = .hunt0)
    (hops : opsOf .dec xs = (g ++ List.replicate k 0x55#8 ++
      (frameHeader c (BitVec.ofNat 16 p.length) ++ p ++ frameTrailer x)).map .decRx)
    (hreset : noReset xs) :
    ∃ t e, feed xs s = .next t ∧ Follows .dec (noCntClear xs) (noEvtAck xs)
      (frameEnd (frameVerdict x (crc16 p) c) (frameReceived c p x (discarding (g.length + k) e s))) t := by
  have hbytes : g ++ List.replicate k 0x55#8 ++
      (frameHeader c (BitVec.ofNat 16 p.length) ++ p ++ frameTrailer x) =
      (g ++ List.replicate (k + 1) 0x55#8) ++
        ([0xAA#8, c, hiByte (BitVec.ofNat 16 p.length), loByte (BitVec.ofNat 16 p.length)] ++
          (p ++ frameTrailer x)) := by
    simp [List.replicate_succ', frameHeader, pre0, pre1]
  obtain ⟨e, he⟩ := rxAll_hunt g k s hg hs
  have hrun := feed_decRx (g ++ List.replicate k 0x55#8 ++
    (frameHeader c (BitVec.ofNat 16 p.length) ++ p ++ frameTrailer x)) s
  have hframe := rxAll_frame (s := discarding (g.length + k) e { s with decState := .hunt1 }) c x rfl hp
  rw [hbytes, rxAll_append, he, hframe, ← hbytes] at hrun
  obtain ⟨t, hfeed, hfol⟩ := feed_unit (u := .dec) nofun hops hreset hrun
  exact ⟨t, e, hfeed, hfol⟩

/-- Settles O36: no garbage and no stray bytes, and the checksum is the payload's. -/
theorem decoderRoundTrip : Obligations.DecoderRoundTrip := by
  intro c p xs s hc hp hs hops hreset
  obtain ⟨t, e, hfeed, hfol⟩ := feed_frame (g := []) (k := 0) nofun hp hs hops hreset
  rw [frameVerdict_of_command rfl ((isCommand_iff c).mpr hc)] at hfol
  refine ⟨t, hfeed, congrArg State.rxo hfol.unit.symm, congrArg State.decState hfol.unit.symm,
    congrArg State.decVerdict hfol.unit.symm, congrArg State.decCrc hfol.unit.symm,
    congrArg State.decCrcRx hfol.unit.symm, congrArg State.decCount hfol.unit.symm, fun hclear => ?_⟩
  obtain ⟨hok, -, -⟩ := hfol.rxCounters hclear
  exact hok

/-- Settles O37: the CRC of the payload received is not the one sent. -/
theorem decoderRejectsFlippedPayloadBit : Obligations.DecoderRejectsFlippedPayloadBit := by
  intro c b before after k xs s n hk hp hn hs hops hreset
  have hlen : (before ++ (b ^^^ (1#8 <<< k)) :: after).length = (before ++ b :: after).length := by
    simp only [List.length_append, List.length_cons]
  rw [← hlen] at hp hn
  subst hn
  obtain ⟨t, e, hfeed, hfol⟩ := feed_frame (g := []) (k := 0) nofun hp hs hops hreset
  rw [frameVerdict_of_ne c (crcDetectsSingleBitFlip before after b k hk).symm] at hfol
  refine ⟨t, hfeed, congrArg State.rxo hfol.unit.symm, congrArg State.decVerdict hfol.unit.symm,
    congrArg State.decState hfol.unit.symm, fun hclear => ?_⟩
  obtain ⟨hok, hbad, -⟩ := hfol.rxCounters hclear
  exact ⟨hbad, hok⟩

/-- Settles O38: what comes before the frame is discarded, and the frame is DOC's. -/
theorem decoderSyncsThroughGarbage : Obligations.DecoderSyncsThroughGarbage := by
  intro g k c p xs s hg hc hp hs hops hreset
  obtain ⟨t, e, hfeed, hfol⟩ := feed_frame hg hp hs hops hreset
  rw [frameVerdict_of_command rfl ((isCommand_iff c).mpr hc)] at hfol
  refine ⟨t, hfeed, congrArg State.rxo hfol.unit.symm, congrArg State.decState hfol.unit.symm,
    congrArg State.decVerdict hfol.unit.symm, fun hclear => ?_⟩
  obtain ⟨-, -, hdiscard⟩ := hfol.rxCounters hclear
  exact hdiscard

end Sys2Proof.Machine

/-! ## The event bits a step sets (60_exceptions.md R180, R185) -/

namespace Sys2Proof.Machine

/-- From `e` to `e'` none or one event is newly set. -/
def AtMostOneNew (e e' : Byte) : Prop := e' &&& ~~~e = 0x00#8 ∨ ∃ ev : Evt, e' &&& ~~~e = evtMask ev

theorem AtMostOneNew.of_subset {e e' : Byte} (h : ∀ k, e'.getLsbD k = true → e.getLsbD k = true) :
    AtMostOneNew e e' := by
  refine .inl (BitVec.eq_of_getLsbD_eq fun k hk => ?_)
  rw [BitVec.getLsbD_and, BitVec.getLsbD_not, BitVec.getLsbD_zero, Bool.and_eq_false_imp]
  intro hk'
  rw [h k hk', Bool.not_true, Bool.and_false]

theorem getLsbD_evtMask (ev : Evt) {k : Nat} (hk : k < 8) :
    (evtMask ev).getLsbD k = decide (k = evtBit ev) := by
  rw [evtMask, BitVec.getLsbD_shiftLeft, BitVec.getLsbD_one, Bool.eq_iff_iff]
  simp only [hk, decide_true, Bool.true_and, Bool.and_eq_true, Bool.not_eq_true', decide_eq_false_iff_not,
    decide_eq_true_eq]
  omega

/-- An event's bit is all its byte has in common with any other, or nothing is. -/
theorem evtMask_and (ev : Evt) (v : Byte) : evtMask ev &&& v = 0x00#8 ∨ evtMask ev &&& v = evtMask ev := by
  have hbits {k : Nat} (hk : k < 8) :
      (evtMask ev &&& v).getLsbD k = (decide (k = evtBit ev) && v.getLsbD (evtBit ev)) := by
    rw [BitVec.getLsbD_and, getLsbD_evtMask ev hk]
    by_cases h : k = evtBit ev <;> simp [h]
  cases hv : v.getLsbD (evtBit ev) with
  | false =>
    refine .inl (BitVec.eq_of_getLsbD_eq fun k hk => ?_)
    rw [hbits hk, hv, Bool.and_false, BitVec.getLsbD_zero]
  | true =>
    refine .inr (BitVec.eq_of_getLsbD_eq fun k hk => ?_)
    rw [hbits hk, hv, Bool.and_true, getLsbD_evtMask ev hk]

theorem AtMostOneNew.of_set (e : Byte) {x : Byte} (hx : x = 0x00#8 ∨ ∃ ev, x = evtMask ev) :
    AtMostOneNew e (e ||| x) := by
  rcases hx with rfl | ⟨ev, rfl⟩
  · exact .of_subset fun k hk => by simpa using hk
  · have hnew : (e ||| evtMask ev) &&& ~~~e = evtMask ev &&& ~~~e := by
      refine BitVec.eq_of_getLsbD_eq fun k _ => ?_
      simp only [BitVec.getLsbD_and, BitVec.getLsbD_or, BitVec.getLsbD_not]
      cases e.getLsbD k <;> simp
    rw [AtMostOneNew, hnew]
    exact (evtMask_and ev (~~~e)).imp id fun h => ⟨ev, h⟩

/-- Acknowledging sets no bit. -/
theorem getLsbD_of_ackEvt {evt m : Byte} {k : Nat} (h : (ackEvt evt m).getLsbD k = true) :
    evt.getLsbD k = true := by
  rw [ackEvt, BitVec.getLsbD_and, Bool.and_eq_true] at h
  obtain ⟨hevt, -⟩ := h
  exact hevt

/-- A reset leaves no bit set. -/
theorem getLsbD_of_resetBlock {s : State} {k : Nat} (h : (resetBlock s).evt.getLsbD k = true) :
    s.evt.getLsbD k = true := by
  have hzero : (resetBlock s).evt.getLsbD k = false := BitVec.getLsbD_zero
  rw [hzero] at h
  cases h

/-- An operation raises at most one event; the three that write the status registers raise none. -/
theorem exec_atMostOneNew {i : Instr} {s t : State} (h : exec i s = .next t) : AtMostOneNew s.evt t.evt := by
  by_cases hi : i.opcode ∈ [0x30#8, 0x31#8, 0x3F#8]
  · cases i with
    | evtAck m =>
      cases h
      exact .of_subset fun _ => getLsbD_of_ackEvt
    | irqSet m =>
      cases h
      exact .of_subset fun _ hk => hk
    | softReset =>
      cases h
      exact .of_subset fun _ => getLsbD_of_resetBlock
    | _ => simp [Instr.opcode] at hi
  · obtain ⟨x, t₀, hx, rfl, -⟩ := exec_eq_withStatus i s t h hi
    exact .of_set s.evt hx

/-- Settles O52: a step is one operation, one illegal word's event, a reset or nothing. -/
theorem atMostOneEventPerStep : Obligations.AtMostOneEventPerStep :=
  fun _ _ h => step_rule (P := fun s t => AtMostOneNew s.evt t.evt) (fun _ => .of_subset fun _ hk => hk)
    (fun _ _ _ h => h) (fun _ _ _ => exec_atMostOneNew)
    (fun s => .of_set s.evt (.inr ⟨.illegalOp, rfl⟩)) h

end Sys2Proof.Machine

/-! ## Rejected operations (41_encoder.md R119, 60_exceptions.md R181) -/

namespace Sys2Proof.Machine

/-- From `s` to `t` neither `SEQ_ERR` nor `CMD_ERR` is newly set. -/
def RejectsNothing (s t : State) : Prop :=
  ∀ k, k = 4 ∨ k = 5 → t.evt.getLsbD k = true → s.evt.getLsbD k = true

theorem RejectsNothing.of_evt_eq {s t : State} (h : t.evt = s.evt) : RejectsNothing s t :=
  fun _ _ hk => h ▸ hk

/-- Another event is raised. -/
theorem RejectsNothing.of_raised {s t : State} {ev : Evt} (h : t.evt = s.evt ||| evtMask ev)
    (hseq : ev ≠ .seqErr) (hcmd : ev ≠ .cmdErr) : RejectsNothing s t := by
  rintro k hk45 hk
  have hbit : (evtMask ev).getLsbD k = false := by
    rcases hk45 with rfl | rfl <;> cases ev <;> simp_all [evtMask, evtBit]
  simpa [h, hbit] using hk

theorem frameEnd_rejectsNothing (v : Verdict) {s s₁ : State} (h : s₁.evt = s.evt) :
    RejectsNothing s (frameEnd v s₁) := by
  refine .of_raised (ev := verdictEvt v) ?_ ?_ ?_
  · rw [frameEnd_evt, setEvt, h]
  · cases v <;> exact nofun
  · cases v <;> exact nofun

theorem rxByte_rejectsNothing (b : Byte) (d : DecState) (s : State) : RejectsNothing s (rxByte b d s) := by
  cases d with
  | hunt0 =>
    dsimp only [rxByte, rxHunt0]
    split
    · exact .of_evt_eq rfl
    · exact .of_raised (ev := .rxDiscard) rfl nofun nofun
  | hunt1 =>
    dsimp only [rxByte, rxHunt1]
    split
    · exact .of_evt_eq rfl
    · split <;> exact .of_raised (ev := .rxDiscard) rfl nofun nofun
  | lenLo =>
    dsimp only [rxByte]
    rcases rxLenLo_cases b s with ⟨-, h⟩ | ⟨-, -, h⟩ | ⟨-, -, h⟩ <;> rw [h]
    · exact frameEnd_rejectsNothing .lenErr rfl
    · exact .of_evt_eq rfl
    · exact .of_evt_eq rfl
  | crcLo => exact frameEnd_rejectsNothing _ rfl
  | _ => exact .of_evt_eq rfl

theorem abortIn_rejectsNothing (d : DecState) (s : State) : RejectsNothing s (abortIn d s) := by
  cases d with
  | hunt0 => exact .of_evt_eq rfl
  | hunt1 => exact .of_raised (ev := .rxDiscard) rfl nofun nofun
  | _ => exact frameEnd_rejectsNothing .aborted rfl

/-- An operation is rejected out of sequence or for its operand, and then only its bit is set, or it is
accepted. -/
theorem exec_rejected_or_not {i : Instr} {s t : State} (h : exec i s = .next t) :
    t = { s with evt := s.evt ||| 0x10#8 } ∨ t = { s with evt := s.evt ||| 0x20#8 } ∨
      RejectsNothing s t := by
  have heq {t' : State} (h' : exec i s = .next t') : t = t' := Host.Outcome.next.inj (h.symm.trans h')
  have hseq {want : EncState} (hi : acceptedIn i = some want) (hne : s.encState ≠ want) :
      t = { s with evt := s.evt ||| 0x10#8 } := heq (exec_of_not_accepted hi hne)
  have hquiet {t' : State} (h' : exec i s = .next t') (he : t'.evt = s.evt) : RejectsNothing s t :=
    .of_evt_eq (heq h' ▸ he)
  have hdone {t' : State} (h' : exec i s = .next t') (he : t'.evt = s.evt ||| evtMask .txDone) :
      RejectsNothing s t := .of_raised (ev := .txDone) (heq h' ▸ he) nofun nofun
  cases i with
  | encBegin c =>
    by_cases hacc : s.encState = .idle
    · by_cases hc : isCommand c = true
      · exact .inr (.inr (hquiet (exec_encBegin_of_command hacc hc) rfl))
      · exact .inr (.inl (heq (exec_encBegin_of_not_command hacc hc)))
    · exact .inl (hseq rfl hacc)
  | encLenHi b =>
    by_cases hacc : s.encState = .lenHi
    · exact .inr (.inr (hquiet (exec_encLenHi_of_accepted b hacc) rfl))
    · exact .inl (hseq rfl hacc)
  | encLenLo b =>
    by_cases hacc : s.encState = .lenLo
    · by_cases hn : setLow s.encLen b = 0x0000#16
      · exact .inr (.inr (hdone (exec_encLenLo_of_eq_zero hacc hn) rfl))
      · exact .inr (.inr (hquiet (exec_encLenLo_of_ne_zero hacc hn) rfl))
    · exact .inl (hseq rfl hacc)
  | encData b =>
    by_cases hacc : s.encState = .payload
    · by_cases hr : s.encRemain = 0x0001#16
      · exact .inr (.inr (hdone (exec_encData_of_eq_one b hacc hr) rfl))
      · exact .inr (.inr (hquiet (exec_encData_of_ne_one b hacc hr) rfl))
    · exact .inl (hseq rfl hacc)
  | encReply r =>
    by_cases hacc : s.encState = .idle
    · cases hr : replyByte r with
      | some b => exact .inr (.inr (hquiet (exec_encReply_of_some hacc hr) rfl))
      | none => exact .inr (.inl (heq (exec_encReply_of_none hacc hr)))
    · exact .inl (hseq rfl hacc)
  | decRx b =>
    rw [exec_decRx] at h
    cases h
    exact .inr (.inr (rxByte_rejectsNothing b s.decState s))
  | decAbort =>
    rw [exec_decAbort] at h
    cases h
    exact .inr (.inr (abortIn_rejectsNothing s.decState s))
  | rplRx b =>
    cases h
    exact .inr (.inr (.of_raised (ev := .rplRx) rfl nofun nofun))
  | evtAck m =>
    cases h
    exact .inr (.inr fun _ _ => getLsbD_of_ackEvt)
  | softReset =>
    cases h
    exact .inr (.inr fun _ _ => getLsbD_of_resetBlock)
  | nop | crcInit | crcFeed | encAbort | irqSet | cntClear =>
    refine .inr (.inr (.of_evt_eq ?_))
    rw [exec_writes _ s t h]
    rfl

/-- Settles O53: a newly set error bit is that of the rejection. -/
theorem rejectedOperationsArePrecise : Obligations.RejectedOperationsArePrecise := by
  intro i s t k h hk45 hs ht
  rcases exec_rejected_or_not h with rfl | rfl | hnone
  · rcases hk45 with rfl | rfl
    · rfl
    · rw [BitVec.getLsbD_or, hs] at ht
      exact absurd ht (by decide)
  · rcases hk45 with rfl | rfl
    · rw [BitVec.getLsbD_or, hs] at ht
      exact absurd ht (by decide)
    · rfl
  · rw [hnone k hk45 ht] at hs
    cases hs

end Sys2Proof.Machine

/-! ## Operations that repeat themselves (20_memory.md R59) -/

namespace Sys2Proof.Machine

theorem setEvt_setEvt (evt : Byte) (e : Evt) : setEvt (setEvt evt e) e = setEvt evt e := by
  rw [setEvt, setEvt, BitVec.or_assoc, BitVec.or_self]

theorem ackEvt_ackEvt (evt m : Byte) : ackEvt (ackEvt evt m) m = ackEvt evt m := by
  rw [ackEvt, ackEvt, BitVec.and_assoc, BitVec.and_self]

theorem encState_of_encAbort {s t : State} (h : exec .encAbort s = .next t) : t.encState = .idle := by
  by_cases hidle : s.encState = .idle
  · rw [exec_encAbort_of_idle hidle] at h
    cases h
    exact hidle
  · rw [exec_encAbort_of_busy hidle] at h
    cases h
    rfl

theorem decState_of_decAbort {s t : State} (h : exec .decAbort s = .next t) : t.decState = .hunt0 := by
  rw [exec_decAbort] at h
  cases h
  cases hd : s.decState with
  | hunt0 => exact hd
  | _ => rfl

/-- Settles O54: an abort leaves its unit where an abort does nothing, and what the others write they write
again. -/
theorem idempotentOperations : Obligations.IdempotentOperations := by
  refine ⟨fun i s t hi h => ?_, fun op s t h => ?_⟩
  · cases i with
    | encAbort => exact exec_encAbort_of_idle (encState_of_encAbort h)
    | decAbort => rw [exec_decAbort, decState_of_decAbort h]; rfl
    | evtAck m =>
      cases h
      rw [exec_evtAck, ackEvt_ackEvt]
    | nop | crcInit | irqSet | cntClear | softReset =>
      cases h
      rfl
    | _ => simp [Instr.opcode] at hi
  · cases h
    rw [execIllegal, raise, raise_evt, setEvt_setEvt]
    rfl

end Sys2Proof.Machine

/-! ## What no step writes (00_scope.md R7, 10_state.md R20) -/

namespace Sys2Proof.Machine

theorem readReg_rxMaxLen (s : State) : readReg 0x12#5 s = s.params.rxMaxLen := rfl

/-- A step takes the input at the head of the port, and leaves the build parameter. -/
theorem step_params_port {s t : State} (h : step s = .next t) :
    t.params = s.params ∧ t.port = s.port.tail := by
  rcases step_cases s with
    ⟨hp, hs⟩ | ⟨rest, hp, hs⟩ | ⟨w, i, rest, hp, -, hs⟩ | ⟨w, op, rest, hp, -, hs⟩ <;>
    rw [hs] at h <;> rw [hp]
  · cases h
    exact ⟨rfl, hp⟩
  · cases h
    exact ⟨rfl, rfl⟩
  · have hkeeps := exec_keepsUnlisted i _ t h
    exact ⟨hkeeps.params, hkeeps.port⟩
  · cases h
    exact ⟨rfl, rfl⟩

/-- Settles O55: address 0x12 reads the parameter. -/
theorem buildParameterNeverWritten : Obligations.BuildParameterNeverWritten := by
  intro s t h
  obtain ⟨hparams, hport⟩ := step_params_port h
  exact ⟨hparams, by rw [readReg_rxMaxLen, readReg_rxMaxLen, hparams], hport⟩

end Sys2Proof.Machine
